-- ==== Sys2Proof/Word.lean ====
section
/-! DEFINITION. The word types: a byte as it stands on a line or in plate memory, and the registers of the two checks. -/

namespace Sys2Proof

/-- A byte of the control link, of the page feed or of plate memory. -/
abbrev Byte := BitVec 8

/-- The register of the CRC-16 of R197. -/
abbrev Crc16 := BitVec 16

/-- The register of the CRC-32 of R198. -/
abbrev Crc32 := BitVec 32

end Sys2Proof
end

