-- ==== Sys2Proof/Syntax.lean ====
section
/-! DEFINITION. The commands of the PX440: one constructor for each row of spec/opcode_table.json. -/

namespace Sys2Proof

/-- The kind of a segment, and with it the renderer that takes it: LINE segments wait for the line decoder, TONE segments
for the screener (R51). -/
inductive SegKind where
  | line
  | tone
deriving DecidableEq, Repr

/-- A command: one indivisible step of the part (95_what_each_step_holds.md). The requests carry no operand, because a
request's kind, tag and body stand in the request buffer (R174); the intake's commands carry none, because the frame stands
in the frame buffer (R22). See log 3. -/
inductive Instr where
  -- requests, carried out at the head of the request buffer (R175)
  | plateDefine
  | plateRelease
  | plateAbort
  | bandQuery
  | feedClear
  | screenBegin
  | screenTable
  | screenEnd
  | plateExpose
  | exposeSetup
  | monitorRead
  | monitorMeasure
  | monitorStop
  | stampLoad
  | plateReport
  | status
  | softReset
  | unknownRequestKind
  -- the control link
  | messageReceived (kind tag : Byte) (body : List Byte) (crc : Crc16)
  | messageLengthTooLong (length : BitVec 16)
  | messageGap
  | transmitReply
  | transmitNotice
  | resetPinAsserted
  | powerOnReset (address : BitVec 4) (rate : BitVec 2)
  -- the page feed's line
  | frameArrivalStart (kind : Byte) (length : BitVec 16)
  | frameArrivalEnd (body : List Byte) (crc : Crc16)
  | feedFrameGap
  -- the intake, at the head of the frame buffer
  | selectFrame
  | openFrame
  | dataFrame
  | closeFrame
  | checkErrorFrame
  | lossMark
  -- rendering
  | renderStart (renderer : SegKind)
  | lineDecodeEnd
  | screenRenderEnd
  -- plate memory
  | burstGrant
  | burstDone
  -- exposure: `ticks` and `pulses` are what the two counters of a monitor step that the event cuts short have reached
  | fetchLineBegin
  | index (ticks pulses : BitVec 24)
  | imageEdge (ticks pulses : BitVec 24)
  | drumReadyFall
  | drumReadyRise
  | indexWatchdogExpiry
  -- the exposure monitor
  | refStepEnd (pulses : BitVec 24)
  | beamStepPulseEnd (ticks : BitVec 24)
  | beamStepGateTimeout (pulses : BitVec 24)
  | syncByteReceived
  | messageSent
deriving DecidableEq, Repr

end Sys2Proof
end

