-- ==== Sys2Proof/Decode.lean ====
section
/-! DEFINITION. The command a word spells: no row of spec/opcode_table.json has bits, so no word spells one. -/

namespace Sys2Proof

/-- The command that the word `w` of `nbits` bits spells by the opcode table's bits. The table gives no row any bits, so
every word is refused. -/
def decodeTableWord (_nbits _w : Nat) : Option Instr := none

end Sys2Proof
end

