-- ==== Sys2Proof/Config.lean ====
section
/-! DEFINITION. The free values: what the manual leaves open and nothing in Lean can evaluate. -/

namespace Sys2Proof

/-- What a byte of plate memory holds whose contents the manual does not define: after power-on (R164), or after a write
that a reset stopped (R170). The first argument is the memory's epoch, the second the address. A free value: log 6 and 7. -/
opaque Config.undefinedByte : Nat → Nat → Byte

end Sys2Proof
end

