-- ==== Sys2Proof/Machine/State.lean ====
section
/-! DEFINITION. The state of the PX440 as plain data: every register, list, buffer and flag the manual names, block by
block, the queue of waiting commands, the reasons a step can stop, and the state after power-on reset. -/

namespace Sys2Proof.Machine

/-! ### Plates and bands (R1 to R11) -/

/-- The states of a plate record (R3). -/
inductive PlateState where
  | loading | active | done | aborted | faulted
deriving DecidableEq, Repr

/-- The states of a band record (R5). -/
inductive BandState where
  | blank | empty | filling | ready | exposing | exposed | starved
deriving DecidableEq, Repr

/-- The causes of a damage record, in the order of R147. -/
inductive Cause where
  | code | content | starved | underrun | power | blind | signature | drum
deriving DecidableEq, Repr

/-- A beam reading as a POWER record holds it: a power index, or TIMEOUT (R147). -/
inductive Reading where
  | index (pi : Nat)
  | timeout
deriving DecidableEq, Repr

/-- A band record (R5). -/
structure Band where
  expected : Nat
  nextSeq : Nat
  state : BandState
  buffer : Option Nat
  rendering : Bool
  damaged : Bool
  expectedSig : Option Crc32
  lastSig : Option Crc32
deriving DecidableEq, Repr

/-- A damage record (R147). `opened` is absent for causes that have no open field. -/
structure DamageRecord where
  cause : Cause
  copy : Nat
  band : Nat
  first : Nat
  last : Nat
  opened : Option Bool
  beam : Option (Fin 4)
  seq : Option Nat
  reading : Option Reading
  markLine : Option Nat
deriving DecidableEq, Repr

/-- A fixed stamp of a plate (R2, R157). -/
structure Stamp where
  pattern : Nat
  x : Nat
  y : Nat
deriving DecidableEq, Repr

/-- A plate record (R2). The band count is the length of `bands`. -/
structure Plate where
  id : Nat
  state : PlateState
  width : Nat
  height : Nat
  copies : Nat
  completed : Nat
  lead : Nat
  urgent : Bool
  authorised : Bool
  stamps : List Stamp
  bands : List Band
  damage : List DamageRecord
  overflow : Nat
  clipped : Nat
  late : Nat
deriving DecidableEq, Repr

/-- The plate table and the plate queue, head first (R1, R11). -/
structure Table where
  plates : List Plate
  queue : List Nat
deriving DecidableEq, Repr

/-! ### Segments (R41 to R46) -/

/-- The paint mode of a segment (R70). -/
inductive PaintMode where
  | replace | overprint
deriving DecidableEq, Repr

/-- The copy of an accepted OPEN header (R41, R195). -/
structure Header where
  plate : Nat
  band : Nat
  seq : Nat
  kind : SegKind
  mode : PaintMode
  x0 : Nat
  y0 : Nat
  w : Nat
  h : Nat
  declared : Nat
  check : Option Crc32
  screen : Nat
  sw : Nat
  sh : Nat
deriving DecidableEq, Repr

/-- The states of a segment queue entry (R42). -/
inductive EntryState where
  | assembling | queued | rendering | rendered | dead
deriving DecidableEq, Repr

/-- A segment queue entry (R41). `linked` says that its link still names the plate record that was current when its OPEN
was accepted (R42, log 32). -/
structure Entry where
  header : Header
  linked : Bool
  ringOffset : Nat
  state : EntryState
deriving DecidableEq, Repr

/-- The segment queue, oldest entry first, and the ring's write position (R41, R44). -/
structure Segments where
  queue : List Entry
  writePos : Nat
deriving DecidableEq, Repr

/-- The band pool's free list, head first (R46). -/
structure Pool where
  free : List Nat
deriving DecidableEq, Repr

/-! ### The control link (R171 to R182) -/

/-- The state of the link receiver (R171). -/
inductive LinkReceiver where
  | hunt | receiving
deriving DecidableEq, Repr

/-- The kind, tag and body of a control-link message (R187): a request in the request buffer, or a message being sent. -/
structure Message where
  kind : Byte
  tag : Byte
  body : List Byte
deriving DecidableEq, Repr

/-- The status codes of a reply, in the order of R176. -/
inductive Status where
  | ok | busy | full | exists | notFound | badArg | badSeq | state | incomplete | overflow | linkError
deriving DecidableEq, Repr

/-- A reply waiting to be sent (R176): no tag for LINK ERROR. -/
structure Reply where
  tag : Option Byte
  status : Status
  result : List Byte
deriving DecidableEq, Repr

/-- The refusal reasons of an OPEN, in the order of R35, and DUP, which is refused without a notice (R29). -/
inductive Refuse where
  | noPlate | badBand | badSeq | late | badRect | badParam | noScreen | noRoom | dup
deriving DecidableEq, Repr

/-- The reasons of an abandonment, in the order of R36. -/
inductive Abandon where
  | check | overrun | length | payload | interrupted
deriving DecidableEq, Repr

/-- The causes of a drum fault, in the order of R121. -/
inductive DrumCause where
  | watchdog | readyLost | edgeMissing
deriving DecidableEq, Repr

/-- The outcomes of a REF step, in the order of R129. -/
inductive RefOutcome where
  | valid | fault | timeout
deriving DecidableEq, Repr

/-- The status of a beam reading, in the order of R132. -/
inductive BeamStatus where
  | ok | low | high | timeout
deriving DecidableEq, Repr

/-- The notices, each with the fields of its entry. -/
inductive Notice where
  | drumFault (plate copy swath : Nat) (cause : DrumCause) (faulted : Bool)
  | referenceFault (plate copy swath : Nat) (outcome : RefOutcome) (n1 gate : Nat)
  | intakeStall (entries freeRing freeBuffers plate band seq position : Nat)
  | damage (plate index : Nat) (record : DamageRecord)
  | segmentRefused (plate band seq : Nat) (kind : Byte) (reason : Refuse)
  | segmentAbandoned (plate band seq received : Nat) (reason : Abandon)
  | bandLate (plate band count copy : Nat)
  | bandReady (plate band : Nat)
  | plateReady (plate : Nat)
  | copyDone (plate copy copies stored overflow : Nat)
  | plateDone (plate completed stored overflow : Nat)
  | measurement (beam : Fin 4) (status : BeamStatus) (pi : Option Nat) (n1 gate : Nat) (n2 : Option Nat) (last : Bool)
  | measureAbandoned (exposure : Bool) (beam : Option (Fin 4))
deriving DecidableEq, Repr

/-- A SCREEN TABLE being carried out: its set, the entry its run begins at, the run as bytes, and how many of them are
written (R86). -/
structure TableJob where
  set : Nat
  first : Nat
  bytes : List Byte
  written : Nat
deriving DecidableEq, Repr

/-- The control link interface. -/
structure Link where
  receiver : LinkReceiver
  requests : List Message
  job : Option TableJob
  replies : List Reply
  notices : List Notice
  lost : Nat
  errors : Nat
  sending : Option Message
deriving DecidableEq, Repr

/-! ### The feed intake (R21 to R40, R194) -/

/-- What a frame in the frame buffer holds: bytes still arriving, the body of a good frame, or a check-error frame
(R21, R22). -/
inductive FrameContent where
  | arriving
  | good (body : List Byte)
  | checkError
deriving DecidableEq, Repr

/-- An item of the frame buffer: a frame with the bytes it occupies, or a loss mark, which occupies none (R22, R23). -/
inductive FrameItem where
  | frame (kind : Byte) (space : Nat) (content : FrameContent)
  | loss
deriving DecidableEq, Repr

/-- The state of the feed's line receiver (R194): between frames, or following a frame to its last byte by the body length it
announced, whether the frame is stored, held empty-bodied or lost. -/
inductive FeedReceiver where
  | between
  | stored (kind : Byte) (length : Nat)
  | overlong (kind : Byte) (length : Nat)
  | lost (length : Nat)
deriving DecidableEq, Repr

/-- The open-segment record (R24). `writing` is the payload of the DATA frame being written and how many of its bytes are
written (R31, R165). -/
structure OpenSegment where
  header : Header
  ringOffset : Nat
  received : Nat
  check : Crc32
  writing : Option (List Byte × Nat)
deriving DecidableEq, Repr

/-- The states of the intake (R24). -/
inductive Intake where
  | unselected
  | selected
  | assembling (seg : OpenSegment)
  | skipping
deriving DecidableEq, Repr

/-- The five feed counters (R38). -/
structure Counters where
  checkErrors : Nat
  overruns : Nat
  strays : Nat
  duplicates : Nat
  refusals : Nat
deriving DecidableEq, Repr

/-- The feed side of the part. `lastLost` says that the last frame to begin arriving was lost (R23, log 21). -/
structure Feed where
  receiver : FeedReceiver
  lastLost : Bool
  buffer : List FrameItem
  intake : Intake
  hold : Bool
  stallArmed : Bool
  counters : Counters
deriving DecidableEq, Repr

/-! ### The renderers (R61, R88) and the line transfers they write (R165) -/

/-- How one byte of plate memory is changed by a write: the bits kept, and the bits then set. A plain write keeps none. -/
structure MaskedByte where
  keep : Byte
  put : Byte
deriving DecidableEq, Repr

/-- A line transfer of a renderer: where its next byte stands in plate memory, and what is left to write. -/
structure Transfer where
  addr : Nat
  cells : List MaskedByte
deriving DecidableEq, Repr

/-- What a renderer holds of the work it was given: the entry, its band's buffer, the width of its plate and the height of
its band (log 19). -/
structure Work where
  entry : Entry
  buffer : Nat
  width : Nat
  bandHeight : Nat
deriving DecidableEq, Repr

/-- Which number of a command the decoder is reading, and what the command has laid so far. `left` counts the runs or the
spans not yet laid; `line` is the line built so far. -/
inductive NumberOf where
  | runCount
  | runLength (left : Nat) (black isFirst : Bool) (line : List Bool)
  | spanCount
  | spanSkip (left at_ : Nat) (line : List Bool)
  | spanLength (left start : Nat) (line : List Bool)
deriving DecidableEq, Repr

/-- The command being read: its opening byte is awaited, or a number of it, with the value and the bytes of the number read
so far (R63). -/
inductive Reader where
  | opening
  | number (what : NumberOf) (value bytes : Nat)
deriving DecidableEq, Repr

/-- The phases of a decode: the white fill of a seq 0 buffer, the code, the white fill after a code error, and its end
(R62, R73, R77). The number is the next line to fill. -/
inductive DecodePhase where
  | fill (line : Nat)
  | code
  | whiten (line : Nat)
  | ended
deriving DecidableEq, Repr

/-- A decode in progress (R61). `readPos` counts the payload bytes consumed, `ahead` holds the bytes read from the ring and
not yet consumed, `repeatLeft` the lines a WHITE or SAME still has to produce. -/
structure Decode where
  work : Work
  phase : DecodePhase
  readPos : Nat
  ahead : List Byte
  lineCount : Nat
  reference : List Bool
  check : Option Crc32
  error : Option Nat
  reader : Reader
  repeatLeft : Nat
  transfer : Transfer
deriving DecidableEq, Repr

/-- The phases of a screen: the white fill of a seq 0 buffer, the reading of a source row, the pixels of a line, and its
end (R89, R97). -/
inductive ScreenPhase where
  | fill (line : Nat)
  | readRow (row : Nat) (got : List Byte)
  | pixels (laid : List Bool)
  | ended
deriving DecidableEq, Repr

/-- A screen in progress (R88): `row` is the source row in use and its samples. -/
structure Screen where
  work : Work
  phase : ScreenPhase
  lineCount : Nat
  row : Option (Nat × List Byte)
  transfer : Transfer
deriving DecidableEq, Repr

/-! ### Screen sets (R79, R80) -/

/-- What SCREEN BEGIN and SCREEN TABLE give a set, but for the tile, which stands in plate memory (R79). -/
structure ScreenParams where
  cell : Nat
  ux : Int
  uy : Int
  vx : Int
  vy : Int
  curve : List Nat
  fill : Nat
deriving DecidableEq, Repr

/-- The state of a screen set: a FREE set holds nothing (R79). -/
inductive ScreenState where
  | free
  | loading (p : ScreenParams)
  | ready (p : ScreenParams)
deriving DecidableEq, Repr

/-- A screen set with its use count (R81). -/
structure ScreenSet where
  state : ScreenState
  useCount : Nat
deriving DecidableEq, Repr

/-! ### The exposure engine (R99 to R104) -/

/-- Four like things, one for each beam. -/
structure PerBeam (α : Type) where
  b0 : α
  b1 : α
  b2 : α
  b3 : α
deriving DecidableEq, Repr

/-- The window of a beam (R102). -/
structure Window where
  lo : Nat
  hi : Nat
deriving DecidableEq, Repr

/-- An exposure setup record (R102). `patterns` holds the mark pattern of each cause, in the order of R147. -/
structure Setup where
  demand : Nat
  timeout : Nat
  laneX : Nat
  patterns : List (Option Nat)
  gate : Nat
  interval : Nat
  beams : BitVec 4
  windows : PerBeam Window
deriving DecidableEq, Repr

/-- The phases of CHANGE (R117). -/
inductive ChangePhase where
  | awaitFall | awaitRise | awaitIndex
deriving DecidableEq, Repr

/-- The states of the engine (R99). -/
inductive EngineState where
  | idle | waitLead | waitDrum | leadIn | exposing
  | change (phase : ChangePhase)
deriving DecidableEq, Repr

/-- The plate taken and the copy number (R99). -/
structure Taken where
  plate : Nat
  copy : Nat
deriving DecidableEq, Repr

/-- What becomes of the line under read: it joins the FIFO, it is dropped because its swath was an underrun (R115), or it
is discarded because the engine stopped (R122). -/
inductive ReadFate where
  | join | drop | discard
deriving DecidableEq, Repr

/-- The read in progress (R99, R110): the plate and copy it was begun for, the plate line, where it stands in plate memory,
its length in bytes, the bytes read so far. -/
structure FetchRead where
  plate : Nat
  copy : Nat
  line : Nat
  addr : Nat
  total : Nat
  got : List Byte
  fate : ReadFate
deriving DecidableEq, Repr

/-- A line of the output FIFO (R99). -/
structure FifoLine where
  line : Nat
  bytes : List Byte
deriving DecidableEq, Repr

/-- The exposure context (R99). -/
structure Engine where
  state : EngineState
  taken : Option Taken
  fetchPos : Nat
  running : Bool
  read : Option FetchRead
  fifo : List FifoLine
  urgent : Bool
  swath : Nat
  edgeSeen : Bool
  watchdog : Option Nat
  active : Setup
  waiting : Option Setup
deriving DecidableEq, Repr

/-! ### The exposure monitor (R128 to R146) -/

/-- The monitor's activity (R128). -/
inductive Activity where
  | idle | exposure | scanSingle | scanContinuous
deriving DecidableEq, Repr

/-- The step in progress (R128). -/
inductive Step where
  | none
  | ref
  | beam (k : Fin 4)
deriving DecidableEq, Repr

/-- The reference (R128). -/
inductive Reference where
  | none
  | valid (n1 gate : Nat)
  | invalid
deriving DecidableEq, Repr

/-- An episode: closed, or open with a link to its record when that record was stored (R128). -/
inductive Episode where
  | closed
  | opened (link : Option Nat)
deriving DecidableEq, Repr

/-- The source of a reading (R132). -/
inductive Source where
  | exposure | scan
deriving DecidableEq, Repr

/-- A beam entry of the reading table (R132). -/
structure BeamReading where
  pi : Option Nat
  status : BeamStatus
  source : Source
deriving DecidableEq, Repr

/-- The reference entry of the reading table (R132). -/
structure RefReading where
  n1 : Nat
  gate : Nat
  outcome : RefOutcome
  source : Source
deriving DecidableEq, Repr

/-- The monitor context (R128) and the reading table (R132). -/
structure Monitor where
  activity : Activity
  step : Step
  stepSwath : Nat
  stepGate : Nat
  gateCounter : Nat
  pulseCounter : Nat
  reference : Reference
  revolutions : Nat
  cursor : Option (Fin 4)
  previous : PerBeam Nat
  power : PerBeam Episode
  blind : Episode
  scanSet : BitVec 4
  beamTable : PerBeam (Option BeamReading)
  refTable : Option RefReading
deriving DecidableEq, Repr

/-! ### The damage and marks unit (R150 to R160) -/

/-- A mark request (R153). -/
structure MarkRequest where
  pattern : Nat
  line : Nat
  link : Option Nat
deriving DecidableEq, Repr

/-- What the mark lane is drawing (R156). -/
structure Drawing where
  pattern : Nat
  markLine : Nat
deriving DecidableEq, Repr

/-- The underrun run (R150). -/
structure UnderrunRun where
  band : Nat
  last : Nat
  link : Option Nat
deriving DecidableEq, Repr

/-- The signature accumulator (R151). -/
structure SigAcc where
  band : Nat
  crc : Crc32
deriving DecidableEq, Repr

/-- The damage and marks unit. -/
structure Marks where
  queue : List MarkRequest
  lane : Option Drawing
  run : Option UnderrunRun
  sig : Option SigAcc
deriving DecidableEq, Repr

/-! ### The arbiter and plate memory (R164 to R170) -/

/-- The five requesters of plate memory (R165). -/
inductive Requester where
  | fetch | intake | decoder | screener | screenTable
deriving DecidableEq, Repr

/-- What a burst does at its place: read a number of bytes, or write these. -/
inductive BurstOp where
  | read (count : Nat)
  | write (cells : List MaskedByte)
deriving DecidableEq, Repr

/-- A burst (R165). `stale` says that its requester gave up the transfer while the burst was carried out (R170). -/
structure Burst where
  who : Requester
  addr : Nat
  op : BurstOp
  stale : Bool
deriving DecidableEq, Repr

/-- The arbiter: FREE or BUSY with a burst (R166), and the last-served renderer (R168). -/
structure Arbiter where
  burst : Option Burst
  lastServed : Option SegKind
deriving DecidableEq, Repr

/-- Plate memory (R164): the bytes whose value is defined, by address, and the epoch of those that are not (log 6). -/
structure Memory where
  cells : List Host.Cell
  epoch : Nat
deriving DecidableEq, Repr

/-! ### Pins, straps and outputs (R183 to R185) -/

/-- A swath at the laser head: beam k exposes the k-th line (R158). -/
structure SwathOut where
  swath : Nat
  lines : List (List Byte)
deriving DecidableEq, Repr

/-- The RESET pin, the DRUM READY level, the straps as read, and the laser head's image output. -/
structure Pins where
  resetAsserted : Bool
  drumReady : Bool
  address : BitVec 4
  rate : BitVec 2
  laser : Option SwathOut
deriving DecidableEq, Repr

/-! ### The whole machine -/

/-- The state of the part, and the queue of the commands that wait for it. -/
structure State where
  pins : Pins
  link : Link
  feed : Feed
  segs : Segments
  pool : Pool
  table : Table
  decoder : Option Decode
  screener : Option Screen
  screens : List ScreenSet
  engine : Engine
  monitor : Monitor
  marks : Marks
  stamps : List (List (BitVec 64))
  arbiter : Arbiter
  memory : Memory
  pending : List Instr
deriving DecidableEq, Repr

/-- The reasons a step can stop with a fault. -/
inductive Fault where
  /-- Raised by BURST_DONE when the granted burst does not lie inside the 256 MiB of plate memory (R164). Safe: the model
  stops where the address does not exist; no burst that the part's own rules ask for lies there. -/
  | outsidePlateMemory
deriving DecidableEq, Repr

/-- The reasons a step can be refused. -/
inductive Refusal where
  /-- Raised by an arm of exec whose command has no meaning yet. Safe: nothing is claimed of it. -/
  | notModelled (mnemonic : String)
deriving DecidableEq, Repr

/-! ### Reset values -/

/-- The same value for each beam. -/
def PerBeam.all {α : Type} (a : α) : PerBeam α := ⟨a, a, a, a⟩

/-- The setup after power-on reset (R102). -/
def Setup.default : Setup where
  demand := 12
  timeout := 2000
  laneX := 0
  patterns := List.replicate 8 none
  gate := 16384
  interval := 64
  beams := 15
  windows := .all ⟨3482, 4710⟩

/-- The feed counters at 0 (R40). -/
def Counters.zero : Counters := ⟨0, 0, 0, 0, 0⟩

/-- The feed side after either reset (R40, R194). -/
def Feed.reset : Feed where
  receiver := .between
  lastLost := false
  buffer := []
  intake := .unselected
  hold := false
  stallArmed := true
  counters := .zero

/-- The segment queue and ring after either reset (R60). -/
def Segments.reset : Segments := ⟨[], 0⟩

/-- The band pool after either reset: all 160 indices in ascending order (R46, R60). -/
def Pool.reset : Pool := ⟨List.range 160⟩

/-- The plate table after either reset (R14). -/
def Table.reset : Table := ⟨[], []⟩

/-- The screen sets after power-on reset (R82). -/
def screensReset : List ScreenSet := List.replicate 8 ⟨.free, 0⟩

/-- The exposure context after either reset, with the active setup that stays or returns to its defaults (R127). -/
def Engine.reset (active : Setup) : Engine where
  state := .idle
  taken := none
  fetchPos := 0
  running := false
  read := none
  fifo := []
  urgent := false
  swath := 0
  edgeSeen := false
  watchdog := none
  active := active
  waiting := none

/-- The monitor after either reset (R146). The step swath, the step gate, the two counters and the scan beam set have no
stated value: DESIGN CHOICE 0, log 5. -/
def Monitor.reset : Monitor where
  activity := .idle
  step := .none
  stepSwath := 0
  stepGate := 0
  gateCounter := 0
  pulseCounter := 0
  reference := .none
  revolutions := 0
  cursor := none
  previous := .all 0
  power := .all .closed
  blind := .closed
  scanSet := 0
  beamTable := .all none
  refTable := none

/-- The damage and marks unit after either reset (R160). -/
def Marks.reset : Marks := ⟨[], none, none, none⟩

/-- The stamp store after power-on reset: wholly white (R161). -/
def stampsReset : List (List (BitVec 64)) := List.replicate 32 (List.replicate 64 0)

/-- The arbiter after either reset (R170). -/
def Arbiter.reset : Arbiter := ⟨none, none⟩

/-- The link side after power-on reset (R183). -/
def Link.reset : Link where
  receiver := .hunt
  requests := []
  job := none
  replies := []
  notices := []
  lost := 0
  errors := 0
  sending := none

/-- The part right after power-on reset (R183). The straps as read and the DRUM READY level are inputs without a stated
value: DESIGN CHOICE 0 and low, log 5. Plate memory holds nothing defined (R164, log 6). -/
def State.reset : State where
  pins := ⟨false, false, 0, 0, none⟩
  link := .reset
  feed := .reset
  segs := .reset
  pool := .reset
  table := .reset
  decoder := none
  screener := none
  screens := screensReset
  engine := .reset .default
  monitor := .reset
  marks := .reset
  stamps := stampsReset
  arbiter := .reset
  memory := ⟨[], 0⟩
  pending := []

/-! ### One update for each field of State -/

def State.withPins (s : State) (x : Pins) : State := { s with pins := x }
def State.withLink (s : State) (x : Link) : State := { s with link := x }
def State.withFeed (s : State) (x : Feed) : State := { s with feed := x }
def State.withSegs (s : State) (x : Segments) : State := { s with segs := x }
def State.withPool (s : State) (x : Pool) : State := { s with pool := x }
def State.withTable (s : State) (x : Table) : State := { s with table := x }
def State.withDecoder (s : State) (x : Option Decode) : State := { s with decoder := x }
def State.withScreener (s : State) (x : Option Screen) : State := { s with screener := x }
def State.withScreens (s : State) (x : List ScreenSet) : State := { s with screens := x }
def State.withEngine (s : State) (x : Engine) : State := { s with engine := x }
def State.withMonitor (s : State) (x : Monitor) : State := { s with monitor := x }
def State.withMarks (s : State) (x : Marks) : State := { s with marks := x }
def State.withStamps (s : State) (x : List (List (BitVec 64))) : State := { s with stamps := x }
def State.withArbiter (s : State) (x : Arbiter) : State := { s with arbiter := x }
def State.withMemory (s : State) (x : Memory) : State := { s with memory := x }
def State.withPending (s : State) (x : List Instr) : State := { s with pending := x }

end Sys2Proof.Machine
end

