-- ==== Sys2Proof/Machine/Bits.lean ====
section
/-! DEFINITION. The byte and bit helpers: big-endian fields, pixel packing, saturating counts, the two checks of R197 and
R198, and the numbers of the part's sizes. -/

namespace Sys2Proof.Machine

/-! ### Sizes -/

/-- 1 MiB, the size of a band buffer (00_scope.md, R46). -/
def mib : Nat := 1048576

/-- Plate memory is 256 MiB (R164). -/
def plateMemorySize : Nat := 256 * mib

/-- The segment ring begins at 160 MiB (R164). -/
def ringBase : Nat := 160 * mib

/-- The segment ring is 64 MiB (R44). -/
def ringSize : Nat := 67108864

/-- The screen tile store begins at 224 MiB (R164). -/
def tileBase : Nat := 224 * mib

/-- The area of one screen set in the tile store is 32 KiB (R79). -/
def tileArea : Nat := 32768

/-- A line of a band buffer is 4096 bytes (R46). -/
def bufferLine : Nat := 4096

/-- The frame buffer is 16 KiB (R22). -/
def frameBufferSize : Nat := 16384

/-- The top of the monitor's two counters (R128). -/
def counterTop : Nat := 16777215

/-! ### Counts that stop at 65535 -/

/-- A count of 0 to 65535 raised by `k`, stopping at 65535 (R4, R38, R179, R180). -/
def satAdd (n k : Nat) : Nat := min (n + k) 65535

/-! ### Bytes and fields, most significant byte first (00_scope.md, R186) -/

/-- A byte that holds a number below 256. -/
def byteOf (n : Nat) : Byte := BitVec.ofNat 8 n

/-- A number in `k` bytes, most significant first. -/
def encBE : Nat → Nat → List Byte
  | 0, _ => []
  | k + 1, n => byteOf (n / 256 ^ k) :: encBE k n

/-- The number in a list of bytes, most significant first. -/
def decBE (bytes : List Byte) : Nat := bytes.foldl (fun a b => a * 256 + b.toNat) 0

/-- The field of `len` bytes at offset `off` of a body. -/
def field (body : List Byte) (off len : Nat) : Nat := decBE ((body.drop off).take len)

/-- The two's complement field of 4 bytes at offset `off` (R188). -/
def signedField (body : List Byte) (off : Nat) : Int := (BitVec.ofNat 32 (field body off 4)).toInt

/-- An indication that has a byte of its own (R186). -/
def encBool (b : Bool) : List Byte := [if b then 1 else 0]

/-- An optional field: a presence byte, then the value in `k` bytes, 0 when absent (R186). -/
def encOption (k : Nat) : Option Nat → List Byte
  | none => 0 :: encBE k 0
  | some n => 1 :: encBE k n

/-! ### Pixels in bytes, leftmost pixel most significant (R69, R75) -/

/-- The list cut into pieces of eight, the last one taking what remains; the first argument bounds the number of pieces. -/
def piecesOfEight {α : Type} : Nat → List α → List (List α)
  | 0, _ => []
  | n + 1, l => if l.isEmpty then [] else l.take 8 :: piecesOfEight n (l.drop 8)

/-- The byte whose bits, from the most significant, are the given pixels, 0 after the last (R75). -/
def packByte (pixels : List Bool) : Byte :=
  byteOf ((pixels ++ List.replicate (8 - pixels.length) false).foldl (fun a b => 2 * a + b.toNat) 0)

/-- A line of pixels as bytes, padded with zeros after the last pixel (R75). -/
def packLine (pixels : List Bool) : List Byte := (piecesOfEight pixels.length pixels).map packByte

/-- `n` bytes of 0: white pixels (R110, R151). -/
def whiteBytes (n : Nat) : List Byte := List.replicate n 0

/-! ### The checks (R197, R198) -/

/-- One data bit fed to a check register: shift left, and take the generator where the bit shifted out differs from the
data bit (R197). -/
def crcBit {w : Nat} (generator : BitVec w) (reg : BitVec w) (bit : Bool) : BitVec w :=
  if reg.msb != bit then (reg <<< 1) ^^^ generator else reg <<< 1

/-- One byte fed to a check register, most significant bit first (R197). -/
def crcByte {w : Nat} (generator : BitVec w) (reg : BitVec w) (b : Byte) : BitVec w :=
  [7, 6, 5, 4, 3, 2, 1, 0].foldl (fun r i => crcBit generator r (b.getLsbD i)) reg

/-- The CRC-16 of R197. -/
def crc16 (bytes : List Byte) : Crc16 := bytes.foldl (crcByte 0x1021) 0xFFFF

/-- The initial state of a running CRC-32 (R198). -/
def crc32Init : Crc32 := 0xFFFFFFFF

/-- Bytes fed to a running CRC-32 (R198). -/
def crc32Feed (reg : Crc32) (bytes : List Byte) : Crc32 := bytes.foldl (crcByte 0x04C11DB7) reg

/-- The final step of a CRC-32: each bit is inverted (R198). -/
def crc32Final (reg : Crc32) : Crc32 := ~~~reg

/-! ### Like things by beam and by position -/

/-- The thing of beam `k`. -/
def PerBeam.get {α : Type} (p : PerBeam α) (k : Fin 4) : α :=
  match k with
  | 0 => p.b0
  | 1 => p.b1
  | 2 => p.b2
  | 3 => p.b3

/-- `p` with the thing of beam `k` replaced. -/
def PerBeam.set {α : Type} (p : PerBeam α) (k : Fin 4) (a : α) : PerBeam α :=
  match k with
  | 0 => { p with b0 := a }
  | 1 => { p with b1 := a }
  | 2 => { p with b2 := a }
  | 3 => { p with b3 := a }

/-- The four beams in ascending order. -/
def beams : List (Fin 4) := [0, 1, 2, 3]

/-- The lowest beam of a beam set above the given one, or the lowest of all when none is given (R135, R143). -/
def beamAbove (set : BitVec 4) (after : Option (Fin 4)) : Option (Fin 4) :=
  beams.find? fun k => set.getLsbD k && (match after with | none => true | some c => decide (c < k))

end Sys2Proof.Machine
end

