-- ==== Sys2Proof/Machine/Operands.lean ====
section
/-! DEFINITION. What the bytes of a request's body, an OPEN header and a frame say: one reader for each layout of
11_message_and_frame_layouts.md. -/

namespace Sys2Proof.Machine

/-! ### Kinds -/

/-- The kind byte of each request (R187). -/
def kindPlateDefine : Byte := 0x01
def kindPlateRelease : Byte := 0x02
def kindPlateAbort : Byte := 0x03
def kindBandQuery : Byte := 0x04
def kindFeedClear : Byte := 0x05
def kindScreenBegin : Byte := 0x06
def kindScreenTable : Byte := 0x07
def kindScreenEnd : Byte := 0x08
def kindPlateExpose : Byte := 0x09
def kindExposeSetup : Byte := 0x0A
def kindMonitorRead : Byte := 0x0B
def kindMonitorMeasure : Byte := 0x0D
def kindMonitorStop : Byte := 0x0E
def kindStampLoad : Byte := 0x0F
def kindPlateReport : Byte := 0x10
def kindStatus : Byte := 0x11
def kindReset : Byte := 0x12

/-- Whether a kind names one of the requests (R173, R187). -/
def isRequestKind (k : Byte) : Bool :=
  [kindPlateDefine, kindPlateRelease, kindPlateAbort, kindBandQuery, kindFeedClear, kindScreenBegin, kindScreenTable,
    kindScreenEnd, kindPlateExpose, kindExposeSetup, kindMonitorRead, kindMonitorMeasure, kindMonitorStop, kindStampLoad,
    kindPlateReport, kindStatus, kindReset].contains k

/-- The kind byte of each frame (R193). -/
def kindSelect : Byte := 0x01
def kindOpen : Byte := 0x02
def kindData : Byte := 0x03
def kindClose : Byte := 0x04

/-- Whether a body length suits a frame kind (R21). -/
def lengthSuits (kind : Byte) (n : Nat) : Bool :=
  if kind = kindSelect then n == 2
  else if kind = kindOpen then n == 27
  else if kind = kindData then decide (1 ≤ n) && decide (n ≤ 4096)
  else if kind = kindClose then n == 4
  else false

/-- Whether a received frame is good: its check matches, its kind is one of the four and its body length suits it
(R21, R193). -/
def frameGood (kind : Byte) (body : List Byte) (crc : Crc16) : Bool :=
  decide (crc16 (kind :: encBE 2 body.length ++ body) = crc) && lengthSuits kind body.length

/-- Whether a received control-link message passes its check (R172, R187). -/
def messageGood (kind tag : Byte) (body : List Byte) (crc : Crc16) : Bool :=
  decide (crc16 (encBE 2 body.length ++ kind :: tag :: body) = crc)

/-! ### Request bodies (R188, R189) -/

/-- The body of a request that names one plate id and nothing else (R188). -/
def plateIdBody (body : List Byte) : Option Nat := if body.length = 2 then some (field body 0 2) else none

/-- The band list entry of a PLATE DEFINE (R189): expected count, and the expected signature when its flag is set. -/
structure BandSpec where
  expected : Nat
  signature : Option Crc32
deriving DecidableEq, Repr

/-- A PLATE DEFINE body (R189). -/
structure PlateSpec where
  id : Nat
  width : Nat
  height : Nat
  copies : Nat
  lead : Nat
  urgent : Bool
  stamps : List Stamp
  bands : List BandSpec
deriving DecidableEq, Repr

/-- The stamp at byte `off` of a PLATE DEFINE body. -/
def stampAt (body : List Byte) (off : Nat) : Stamp := ⟨field body off 1, field body (off + 1) 2, field body (off + 3) 2⟩

/-- The band list entry at byte `off` of a PLATE DEFINE body; the unnamed flag bits are ignored (R186). -/
def bandSpecAt (body : List Byte) (off : Nat) : BandSpec where
  expected := field body off 1
  signature := if field body (off + 1) 1 % 2 = 1 then some (BitVec.ofNat 32 (field body (off + 2) 4)) else none

/-- The PLATE DEFINE body, or none where its length is not what its stamp count and band list length imply (R15, R189). -/
def plateDefineBody (body : List Byte) : Option PlateSpec :=
  let n := field body 9 1
  let m := field body 10 1
  if 11 ≤ body.length ∧ body.length = 11 + 5 * n + 6 * m then
    some
      { id := field body 0 2
        width := field body 2 2
        height := field body 4 2
        copies := field body 6 1
        lead := field body 7 1
        urgent := field body 8 1 % 2 == 1
        stamps := (List.range n).map fun i => stampAt body (11 + 5 * i)
        bands := (List.range m).map fun i => bandSpecAt body (11 + 5 * n + 6 * i) }
  else none

/-- The SCREEN BEGIN body: set, cell size, coefficients and curve, with fill position 0 (R83, R188). -/
def screenBeginBody (body : List Byte) : Option (Nat × ScreenParams) :=
  if body.length = 52 then
    some (field body 0 1,
      { cell := field body 1 1
        ux := signedField body 2
        uy := signedField body 6
        vx := signedField body 10
        vy := signedField body 14
        curve := (List.range 17).map fun i => field body (18 + 2 * i) 2
        fill := 0 })
  else none

/-- The EXPOSE SETUP body as a record with D as received (R103, R188). -/
def exposeSetupBody (body : List Byte) : Option (Setup × Nat) :=
  if body.length = 34 then
    let pat (i : Nat) := if field body (5 + i) 1 = 255 then none else some (field body (5 + i) 1)
    let win (k : Nat) : Window := ⟨field body (18 + 4 * k) 2, field body (20 + 4 * k) 2⟩
    some (
      { demand := field body 0 1
        timeout := field body 1 2
        laneX := field body 3 2
        patterns := (List.range 8).map pat
        gate := field body 13 2
        interval := field body 15 2
        beams := BitVec.ofNat 4 (field body 17 1)
        windows := ⟨win 0, win 1, win 2, win 3⟩ },
      field body 17 1)
  else none

/-! ### The OPEN header (R195) -/

/-- The 27 bytes of an OPEN header as received: the segment kind and paint mode are still raw bytes. -/
structure RawHeader where
  plate : Nat
  band : Nat
  seq : Nat
  kind : Byte
  mode : Byte
  checkPresent : Bool
  x0 : Nat
  y0 : Nat
  w : Nat
  h : Nat
  declared : Nat
  check : Nat
  screen : Nat
  sw : Nat
  sh : Nat
deriving DecidableEq, Repr

/-- The header in an OPEN frame's body (R195). -/
def openHeader (body : List Byte) : RawHeader where
  plate := field body 0 2
  band := field body 2 1
  seq := field body 3 1
  kind := byteOf (field body 4 1)
  mode := byteOf (field body 5 1)
  checkPresent := field body 6 1 % 2 == 1
  x0 := field body 7 2
  y0 := field body 9 1
  w := field body 10 2
  h := field body 12 2
  declared := field body 14 4
  check := field body 18 4
  screen := field body 22 1
  sw := field body 23 2
  sh := field body 25 2

/-- The segment kind a header's byte names (R195). -/
def RawHeader.segKind? (r : RawHeader) : Option SegKind :=
  if r.kind = 1 then some .line else if r.kind = 2 then some .tone else none

/-- The paint mode a header's byte names (R195). -/
def RawHeader.paintMode? (r : RawHeader) : Option PaintMode :=
  if r.mode = 0 then some .replace else if r.mode = 1 then some .overprint else none

/-- The copy of an accepted header (R30, R41). The screen fields of a LINE header are ignored (R195). -/
def RawHeader.toHeader (r : RawHeader) (kind : SegKind) (mode : PaintMode) : Header where
  plate := r.plate
  band := r.band
  seq := r.seq
  kind := kind
  mode := mode
  x0 := r.x0
  y0 := r.y0
  w := r.w
  h := r.h
  declared := r.declared
  check := if r.checkPresent then some (BitVec.ofNat 32 r.check) else none
  screen := match kind with | .line => 0 | .tone => r.screen
  sw := match kind with | .line => 0 | .tone => r.sw
  sh := match kind with | .line => 0 | .tone => r.sh

end Sys2Proof.Machine
end

