-- ==== Sys2Proof/Machine/Layouts.lean ====
section
/-! DEFINITION. What the part sends, byte by byte: replies, notices and the reports they carry, as
11_message_and_frame_layouts.md lays them out. -/

namespace Sys2Proof.Machine

/-! ### Named values: the position in the list of the rule that defines them (R186) -/

def Status.pos : Status → Nat
  | .ok => 0 | .busy => 1 | .full => 2 | .exists => 3 | .notFound => 4 | .badArg => 5 | .badSeq => 6 | .state => 7
  | .incomplete => 8 | .overflow => 9 | .linkError => 10

def PlateState.pos : PlateState → Nat
  | .loading => 0 | .active => 1 | .done => 2 | .aborted => 3 | .faulted => 4

def BandState.pos : BandState → Nat
  | .blank => 0 | .empty => 1 | .filling => 2 | .ready => 3 | .exposing => 4 | .exposed => 5 | .starved => 6

def Cause.pos : Cause → Nat
  | .code => 0 | .content => 1 | .starved => 2 | .underrun => 3 | .power => 4 | .blind => 5 | .signature => 6 | .drum => 7

/-- SEGMENT REFUSED carries the reasons NOPLATE 0 to NOROOM 7; DUP is never sent (R29, R35). -/
def Refuse.pos : Refuse → Nat
  | .noPlate => 0 | .badBand => 1 | .badSeq => 2 | .late => 3 | .badRect => 4 | .badParam => 5 | .noScreen => 6 | .noRoom => 7
  | .dup => 8

def Abandon.pos : Abandon → Nat
  | .check => 0 | .overrun => 1 | .length => 2 | .payload => 3 | .interrupted => 4

def DrumCause.pos : DrumCause → Nat
  | .watchdog => 0 | .readyLost => 1 | .edgeMissing => 2

def RefOutcome.pos : RefOutcome → Nat
  | .valid => 0 | .fault => 1 | .timeout => 2

def BeamStatus.pos : BeamStatus → Nat
  | .ok => 0 | .low => 1 | .high => 2 | .timeout => 3

def Source.pos : Source → Nat
  | .exposure => 0 | .scan => 1

def Activity.pos : Activity → Nat
  | .idle => 0 | .exposure => 1 | .scanSingle => 2 | .scanContinuous => 3

/-- The engine state's byte (R186: IDLE 0 to CHANGE 5). -/
def EngineState.pos : EngineState → Nat
  | .idle => 0 | .waitLead => 1 | .waitDrum => 2 | .leadIn => 3 | .exposing => 4 | .change _ => 5

/-- The change phase's byte, 0 outside CHANGE (R190). -/
def EngineState.phaseCode : EngineState → Nat
  | .change .awaitFall => 0 | .change .awaitRise => 1 | .change .awaitIndex => 2
  | .idle | .waitLead | .waitDrum | .leadIn | .exposing => 0

def Intake.pos : Intake → Nat
  | .unselected => 0 | .selected => 1 | .assembling _ => 2 | .skipping => 3

/-- The beam of a step, if it is a BEAM step. -/
def Step.beam? : Step → Option (Fin 4)
  | .beam k => Option.some k
  | .none | .ref => Option.none

/-- The step's byte: none 0, REF 1, BEAM k as 2 + k (R190, R192). -/
def Step.pos : Step → Nat
  | .none => 0 | .ref => 1 | .beam k => 2 + k.val

/-! ### The damage record as reported (R191) -/

/-- The flags byte of a reported record. -/
def DamageRecord.flags (r : DamageRecord) : Nat :=
  (if r.opened = some true then 1 else 0) + (if r.beam.isSome then 2 else 0)
    + (if r.reading = some .timeout then 4 else 0) + (if r.seq.isSome then 8 else 0) + (if r.markLine.isSome then 16 else 0)

/-- The PI of a reading, 0 when TIMEOUT (R191). -/
def Reading.pi : Reading → Nat
  | .index n => n
  | .timeout => 0

/-- The 15 bytes of a record at an index of its table. -/
def DamageRecord.bytes (r : DamageRecord) (index : Nat) : List Byte :=
  encBE 1 index ++ encBE 1 r.cause.pos ++ encBE 1 r.copy ++ encBE 1 r.band ++ encBE 2 r.first ++ encBE 2 r.last
    ++ encBE 1 r.flags ++ encBE 1 ((r.beam.map Fin.val).getD 0) ++ encBE 1 (r.seq.getD 0)
    ++ encBE 2 ((r.reading.map Reading.pi).getD 0) ++ encBE 2 (r.markLine.getD 0)

/-! ### Notices (R187) -/

/-- The classes of R178. -/
inductive NoticeClass where
  | fault | damage | progress | measure
deriving DecidableEq, Repr

def Notice.cls : Notice → NoticeClass
  | .drumFault .. | .referenceFault .. | .intakeStall .. => .fault
  | .damage .. | .segmentRefused .. | .segmentAbandoned .. | .bandLate .. => .damage
  | .bandReady .. | .plateReady .. | .copyDone .. | .plateDone .. => .progress
  | .measurement .. | .measureAbandoned .. => .measure

/-- The kind byte of a notice (R187). -/
def Notice.kind : Notice → Byte
  | .drumFault .. => 0x90
  | .referenceFault .. => 0x91
  | .intakeStall .. => 0x92
  | .damage .. => 0xA0
  | .segmentRefused .. => 0xA1
  | .segmentAbandoned .. => 0xA2
  | .bandLate .. => 0xA3
  | .bandReady .. => 0xB0
  | .plateReady .. => 0xB1
  | .copyDone .. => 0xB2
  | .plateDone .. => 0xB3
  | .measurement .. => 0xC0
  | .measureAbandoned .. => 0xC1

/-- The fields of a notice in the order its entry lists them; sizes as R186 gives them, and where it gives none as log 22
and 23 say. DAMAGE sends no mark line (R149). -/
def Notice.fields : Notice → List Byte
  | .drumFault plate copy swath cause faulted =>
    encBE 2 plate ++ encBE 1 copy ++ encBE 2 swath ++ encBE 1 cause.pos ++ encBool faulted
  | .referenceFault plate copy swath outcome n1 gate =>
    encBE 2 plate ++ encBE 1 copy ++ encBE 2 swath ++ encBE 1 outcome.pos ++ encBE 3 n1 ++ encBE 2 gate
  | .intakeStall entries freeRing freeBuffers plate band seq position =>
    encBE 2 entries ++ encBE 4 freeRing ++ encBE 1 freeBuffers ++ encBE 2 plate ++ encBE 1 band ++ encBE 1 seq
      ++ encBE 1 position
  | .damage plate index record => encBE 2 plate ++ { record with markLine := none }.bytes index
  | .segmentRefused plate band seq kind reason =>
    encBE 2 plate ++ encBE 1 band ++ encBE 1 seq ++ [kind] ++ encBE 1 reason.pos
  | .segmentAbandoned plate band seq received reason =>
    encBE 2 plate ++ encBE 1 band ++ encBE 1 seq ++ encBE 4 received ++ encBE 1 reason.pos
  | .bandLate plate band count copy => encBE 2 plate ++ encBE 1 band ++ encBE 1 count ++ encBE 1 copy
  | .bandReady plate band => encBE 2 plate ++ encBE 1 band
  | .plateReady plate => encBE 2 plate
  | .copyDone plate copy copies stored overflow =>
    encBE 2 plate ++ encBE 1 copy ++ encBE 1 copies ++ encBE 1 stored ++ encBE 2 overflow
  | .plateDone plate completed stored overflow =>
    encBE 2 plate ++ encBE 1 completed ++ encBE 1 stored ++ encBE 2 overflow
  | .measurement beam status pi n1 gate n2 last =>
    encBE 1 beam.val ++ encBE 1 status.pos ++ encOption 2 pi ++ encBE 3 n1 ++ encBE 2 gate ++ encOption 3 n2
      ++ encBool last
  | .measureAbandoned exposure beam => encBool exposure ++ encOption 1 (beam.map Fin.val)

/-- The message a notice is sent as, with the lost count in its lost field and tag 0 (R179, R187). -/
def Notice.message (n : Notice) (lost : Nat) : Message := ⟨n.kind, 0, encBE 2 lost ++ n.fields⟩

/-- The message a reply is sent as: status, flags with the tag-present indication, result body (R187). LINK ERROR carries
tag 0 (R172). -/
def Reply.message (r : Reply) : Message :=
  ⟨0x80, r.tag.getD 0, byteOf r.status.pos :: (if r.tag.isSome then 1 else 0) :: r.result⟩

/-- The bytes of a message on the link: sync, length, kind, tag, body, CRC-16 (R187). -/
def Message.wire (m : Message) : List Byte :=
  let covered := encBE 2 m.body.length ++ m.kind :: m.tag :: m.body
  0xA5 :: covered ++ encBE 2 (crc16 covered).toNat

/-! ### Reply result bodies (R190, R192) -/

/-- One band record of BAND QUERY, 18 bytes. -/
def Band.bytes (b : Band) (index : Nat) : List Byte :=
  encBE 1 index ++ encBE 1 b.state.pos ++ encBE 1 b.expected ++ encBE 1 b.nextSeq ++ encOption 1 b.buffer
    ++ encBool b.rendering ++ encBool b.damaged ++ encOption 4 (b.expectedSig.map BitVec.toNat)
    ++ encOption 4 (b.lastSig.map BitVec.toNat)

/-- The five feed counters, 2 bytes each. -/
def Counters.bytes (c : Counters) : List Byte :=
  encBE 2 c.checkErrors ++ encBE 2 c.overruns ++ encBE 2 c.strays ++ encBE 2 c.duplicates ++ encBE 2 c.refusals

/-- A beam entry of the reading table, 6 bytes (R192). -/
def beamEntryBytes (k : Fin 4) : Option BeamReading → List Byte
  | none => encBE 1 k.val ++ [0, 0, 0] ++ encBE 2 0
  | some r => encBE 1 k.val ++ [1] ++ encBE 1 r.status.pos ++ encBE 1 r.source.pos ++ encBE 2 (r.pi.getD 0)

/-- The reference entry of the reading table, 9 bytes (R192). -/
def refEntryBytes : Option RefReading → List Byte
  | none => [4, 0, 0, 0] ++ encBE 3 0 ++ encBE 2 0
  | some r => [4, 1] ++ encBE 1 r.outcome.pos ++ encBE 1 r.source.pos ++ encBE 3 r.n1 ++ encBE 2 r.gate

/-- The 35 bytes of MONITOR READ (R192). -/
def Monitor.bytes (m : Monitor) : List Byte :=
  encBE 1 m.activity.pos ++ encBE 1 m.step.pos ++ beamEntryBytes 0 m.beamTable.b0 ++ beamEntryBytes 1 m.beamTable.b1
    ++ beamEntryBytes 2 m.beamTable.b2 ++ beamEntryBytes 3 m.beamTable.b3 ++ refEntryBytes m.refTable

/-- An identity as STATUS sends it, an optional group (R190). -/
def identityBytes : Option Header → List Byte
  | none => [0] ++ encBE 4 0
  | some h => [1] ++ encBE 2 h.plate ++ encBE 1 h.band ++ encBE 1 h.seq

/-- The plate summary and the records of PLATE REPORT (R163, R190). -/
def Plate.reportBytes (p : Plate) (first : Nat) : List Byte :=
  let records := ((p.damage.mapIdx fun i r => (i, r)).drop first).take 16
  encBE 2 p.id ++ encBE 1 p.state.pos ++ encBE 1 p.copies ++ encBE 1 p.completed
    ++ encBE 1 ((if p.urgent then 1 else 0) + (if p.authorised then 2 else 0)) ++ encBE 1 p.damage.length
    ++ encBE 2 p.overflow ++ encBE 2 p.clipped ++ encBE 2 p.late ++ encBE 1 records.length
    ++ records.flatMap fun r => r.2.bytes r.1

/-- The records of BAND QUERY from a first band on (R20, R190). -/
def Plate.queryBytes (p : Plate) (first count : Nat) : List Byte :=
  let records := ((p.bands.mapIdx fun i b => (i, b)).drop first).take count
  encBE 1 records.length ++ records.flatMap fun r => r.2.bytes r.1

end Sys2Proof.Machine
end

