-- ==== Sys2Proof/Machine/Flags.lean ====
section
/-! DEFINITION. The quantities and indications the part computes from its state: band heights, need, free ring space, the
FEED HOLD level, the fetch's urgency, the status of a beam reading. -/

namespace Sys2Proof.Machine

/-! ### Plates and bands -/

/-- Height of band `b`: 256 lines, or what remains for the last band (01_plates_and_bands.md, R28). -/
def Plate.bandHeight (p : Plate) (b : Nat) : Nat :=
  if b + 1 < p.bands.length then 256 else p.height - 256 * (p.bands.length - 1)

/-- The last plate line of band `b`. -/
def Plate.lastLine (p : Plate) (b : Nat) : Nat := 256 * b + p.bandHeight b - 1

/-- Swath count N = ceil(H/4) (R99). -/
def Plate.swaths (p : Plate) : Nat := (p.height + 3) / 4

/-- The bytes of a plate line, W/8. -/
def Plate.lineBytes (p : Plate) : Nat := p.width / 8

/-- LOADING or ACTIVE (R52). -/
def Plate.live (p : Plate) : Bool := decide (p.state = .loading) || decide (p.state = .active)

/-- A band that counts in its plate's need (R48). -/
def Band.needs (b : Band) : Bool :=
  decide (0 < b.expected) && b.buffer.isNone && !decide (b.state = .exposed) && !decide (b.state = .starved)

/-- The need of a plate (R48). -/
def Plate.need (p : Plate) : Nat := (p.bands.filter Band.needs).length

/-- Whether a plate holds at least one band buffer (R13, R50). -/
def Plate.holdsBuffer (p : Plate) : Bool := p.bands.any fun b => b.buffer.isSome

/-- Every band is BLANK or has next seq equal to its expected count (R10). -/
def Plate.complete (p : Plate) : Bool := p.bands.all fun b => decide (b.state = .blank) || decide (b.nextSeq = b.expected)

/-- A band is settled when it is READY, BLANK or STARVED (R109). -/
def Band.settled (b : Band) : Bool :=
  decide (b.state = .ready) || decide (b.state = .blank) || decide (b.state = .starved)

/-- Bands 0 to L - 1 are all settled (R109). -/
def Plate.leadSettled (p : Plate) : Bool := (p.bands.take p.lead).all Band.settled

/-- The plate record with an id (R1). -/
def State.plate? (s : State) (id : Nat) : Option Plate := s.table.plates.find? fun p => decide (p.id = id)

/-- The band record of a plate (R5). -/
def State.band? (s : State) (id b : Nat) : Option Band := (s.plate? id).bind fun p => p.bands[b]?

/-- The plate the engine has taken, with its record (R99). -/
def State.takenPlate? (s : State) : Option (Taken × Plate) :=
  s.engine.taken.bind fun t => (s.plate? t.plate).map fun p => (t, p)

/-- The need of the plate with an id, 0 where there is none. -/
def State.needOf (s : State) (id : Nat) : Nat := ((s.plate? id).map Plate.need).getD 0

/-- The summed need of a list of plates (R49). -/
def State.needSum (s : State) (ids : List Nat) : Nat := (ids.map s.needOf).sum

/-- A buffer is grantable for a plate of the queue: the free buffers less one number at least the summed need of the plates
ahead of it; for the head, at least one is free (R49). -/
def State.grantable (s : State) (id : Nat) : Bool :=
  decide (id ∈ s.table.queue)
    && decide (1 + s.needSum (s.table.queue.takeWhile fun q => !decide (q = id)) ≤ s.pool.free.length)

/-! ### Segments -/

/-- A live entry is ASSEMBLING, QUEUED or RENDERING (R43). -/
def Entry.live (e : Entry) : Bool :=
  decide (e.state = .assembling) || decide (e.state = .queued) || decide (e.state = .rendering)

/-- An entry that ring release may remove (R45). -/
def Entry.finished (e : Entry) : Bool := decide (e.state = .rendered) || decide (e.state = .dead)

/-- The ring space the entries hold (R44). -/
def heldRing (q : List Entry) : Nat := (q.map fun e => e.header.declared).sum

/-- Free ring space (R44). -/
def State.freeRing (s : State) : Nat := ringSize - heldRing s.segs.queue

/-- Whether a QUEUED entry may be given to its renderer (R52). -/
def State.eligible (s : State) (e : Entry) : Bool :=
  decide (e.state = .queued) && e.linked &&
    match s.plate? e.header.plate with
    | none => false
    | some p =>
      match p.bands[e.header.band]? with
      | none => false
      | some b =>
        p.live && decide (e.header.seq = b.nextSeq) && (decide (b.state = .empty) || decide (b.state = .filling))
          && !b.rendering && (b.buffer.isSome || (decide (e.header.seq = 0) && s.grantable e.header.plate))

/-- A segment is clipped when its rectangle passes the plate's width or the band's last line (R71, R96). -/
def Work.clipped (k : Work) : Bool :=
  decide (k.width < k.entry.header.x0 + k.entry.header.w) || decide (k.bandHeight < k.entry.header.y0 + k.entry.header.h)

/-! ### FEED HOLD (R37) -/

/-- The bytes an item of the frame buffer occupies (R22, R23). -/
def FrameItem.space : FrameItem → Nat
  | .frame _ n _ => n
  | .loss => 0

/-- The frame buffer's level (02_the_page_feed.md). -/
def frameLevel (items : List FrameItem) : Nat := (items.map FrameItem.space).sum

/-- A condition that asserts FEED HOLD holds (R37). -/
def holdWanted (level entries free : Nat) : Bool :=
  decide (12288 ≤ level) || decide (240 ≤ entries) || decide (free < 4 * mib)

/-- All conditions that release FEED HOLD hold (R37). -/
def holdReleased (level entries free : Nat) : Bool :=
  decide (level ≤ 4096) && decide (entries ≤ 224) && decide (8 * mib ≤ free)

/-- FEED HOLD after its conditions are tested: between the two moments it keeps its level (R37). -/
def holdAfter (hold : Bool) (level entries free : Nat) : Bool :=
  if hold then !holdReleased level entries free else holdWanted level entries free

/-! ### The fetch's urgency (R111) -/

/-- The urgency after the FIFO level is tested. -/
def urgencyAfter (running urgent : Bool) (level demand : Nat) : Bool :=
  if running then (if level ≤ demand then true else if demand + 8 ≤ level then false else urgent) else false

/-- The engine with its urgency tested. -/
def Engine.testUrgency (e : Engine) : Engine :=
  { e with urgent := urgencyAfter e.running e.urgent e.fifo.length e.active.demand }

/-! ### The outputs (R185, log 38) -/

/-- The calibration firing output: a beam is fired for calibration in a BEAM step (R130). -/
def State.calibrationFiring (s : State) : Bool := s.monitor.step.beam?.isSome

/-- The beam enables 0 to 3: all four while a swath is exposed (R102, R114), the measured beam alone in a BEAM step (R130). -/
def State.beamEnable (s : State) : BitVec 4 :=
  match s.pins.laser, s.monitor.step.beam? with
  | some _, _ => 15
  | none, some k => BitVec.twoPow 4 k.val
  | none, none => 0

/-- Beam data `k`: the line that beam `k` exposes in the swath at the head; none where no image is exposed (R114, R158). -/
def State.beamData (s : State) (k : Fin 4) : Option (List Byte) := s.pins.laser.bind fun o => o.lines[k.val]?

/-- The bytes of the message that stands on link transmit (R177, R187). -/
def State.linkTransmit (s : State) : Option (List Byte) := s.link.sending.map Message.wire

/-! ### Beam readings (R131) -/

/-- The power index of a measured reading: 65535 at an N2 of 0 (R131). -/
def powerIndex (gate n2 : Nat) : Nat := if n2 = 0 then 65535 else min 65535 (4096 * gate / n2)

/-- The status of a reading against a window (R131). -/
def beamStatus (w : Window) : Option Nat → BeamStatus
  | none => .timeout
  | some pi => if pi < w.lo then .low else if w.hi < pi then .high else .ok

end Sys2Proof.Machine
end

