-- ==== Sys2Proof/Machine/Memory.lean ====
section
/-! DEFINITION. Plate memory as a list of cells in one canonical form: reading, writing, and losing the value of a byte. -/

namespace Sys2Proof.Machine

/-- The canonical form of the cells: addresses strictly rising, each inside plate memory. An unlisted address holds no
defined value, so no listed cell can equal it. -/
def cellsWf : List Host.Cell → Bool
  | [] => true
  | [c] => decide (c.1 < plateMemorySize)
  | c :: d :: rest => decide (c.1 < d.1) && decide (c.1 < plateMemorySize) && cellsWf (d :: rest)

/-- The canonical form of plate memory. -/
def Memory.wf (m : Memory) : Bool := cellsWf m.cells

/-- The cells with the byte at `a` set to `v`. -/
def setCell (a : Nat) (v : Byte) : List Host.Cell → List Host.Cell
  | [] => [(a, v)]
  | c :: rest =>
    if a < c.1 then (a, v) :: c :: rest
    else if a = c.1 then (a, v) :: rest
    else c :: setCell a v rest

/-- The defined value at `a`, if there is one. -/
def findCell (a : Nat) : List Host.Cell → Option Byte
  | [] => none
  | c :: rest => if a = c.1 then some c.2 else if a < c.1 then none else findCell a rest

/-- The value of the byte at `a`: the value written last, or the free value of its epoch where none is defined (R164,
log 6). -/
def Memory.read (m : Memory) (a : Nat) : Byte :=
  match findCell a m.cells with
  | some v => v
  | none => Config.undefinedByte m.epoch a

/-- The bytes at `a` and the `n - 1` after it. -/
def Memory.readRun (m : Memory) (a n : Nat) : List Byte := (List.range n).map fun i => m.read (a + i)

/-- The memory with the byte at `a` set to `v`. -/
def Memory.write (m : Memory) (a : Nat) (v : Byte) : Memory := { m with cells := setCell a v m.cells }

/-- The value a masked byte leaves where `old` stood (R70). -/
def MaskedByte.on (c : MaskedByte) (old : Byte) : Byte := (old &&& c.keep) ||| c.put

/-- The masked byte that replaces a byte whole. -/
def MaskedByte.plain (v : Byte) : MaskedByte := ⟨0, v⟩

/-- The memory after a burst writes its cells from `a` on. A cell that keeps no bit does not look at the old byte. -/
def Memory.writeRun (m : Memory) (a : Nat) : List MaskedByte → Memory
  | [] => m
  | c :: rest => (m.write a (if c.keep = 0 then c.put else c.on (m.read a))).writeRun (a + 1) rest

/-- The memory after a reset stopped a write of `n` bytes at `a`: those bytes have no defined value, and a new epoch begins
(R170, log 7). -/
def Memory.forget (m : Memory) (a n : Nat) : Memory where
  cells := m.cells.filter fun c => decide (c.1 < a) || decide (a + n ≤ c.1)
  epoch := m.epoch + 1

/-- The memory after a power-on reset: nothing is defined (R164). -/
def Memory.powerOn (m : Memory) : Memory := ⟨[], m.epoch + 1⟩

end Sys2Proof.Machine
end

