-- ==== Sys2Proof/Machine/Ops.lean ====
section
/-! DEFINITION. The operations that several commands share: posting a notice, answering a request, testing FEED HOLD,
releasing ring space, returning buffers, abandoning and discarding segments, making damage records and mark requests. -/

namespace Sys2Proof.Machine

/-! ### The control link -/

/-- A notice posted: it joins where its class may use a place, otherwise it is dropped and counted lost (R178, R179). -/
def Link.post (l : Link) (n : Notice) : Link :=
  if l.notices.length < (if n.cls = .fault then 32 else 28) then { l with notices := l.notices ++ [n] }
  else { l with lost := satAdd l.lost 1 }

/-- A notice posted (R178). -/
def State.post (s : State) (n : Notice) : State := s.withLink (s.link.post n)

/-- A reply made outside the carrying out of a request, OVERFLOW or LINK ERROR: it is not made where the reply queue has no
place for it beside the one kept for a request being carried out (R177). -/
def Link.tell (l : Link) (r : Reply) : Link :=
  if l.replies.length + (if l.job.isSome then 1 else 0) < 8 then { l with replies := l.replies ++ [r] } else l

/-- A link error: the count rises and a LINK ERROR reply is made, and the receiver hunts (R171, R172, R180). -/
def Link.error (l : Link) : Link :=
  { l with receiver := .hunt, errors := satAdd l.errors 1 }.tell ⟨none, .linkError, []⟩

/-- The reply of the request at the head of the buffer is made, and the request leaves the buffer (R175). -/
def Link.answer (l : Link) (status : Status) (result : List Byte) : Link :=
  match l.requests with
  | [] => l
  | m :: rest => { l with requests := rest, job := none, replies := l.replies ++ [⟨some m.tag, status, result⟩] }

/-- The request at the head of the buffer is answered (R175, R176). -/
def State.answer (s : State) (status : Status) (result : List Byte) : State := s.withLink (s.link.answer status result)

/-- The request that may be carried out now: none is being carried out, the buffer is not empty, the reply queue has a free
place (R175), and the RESET pin is not asserted (R183). -/
def State.due (s : State) : Option Message :=
  if s.pins.resetAsserted || s.link.job.isSome || decide (8 ≤ s.link.replies.length) then none
  else s.link.requests.head?

/-- The transmitter begins a message: the reply at the head of its queue, otherwise the notice at the head of its queue,
whose lost field takes the lost count (R177, R179). -/
def Link.beginSend (l : Link) : Link :=
  match l.replies with
  | r :: rest => { l with replies := rest, sending := some r.message }
  | [] =>
    match l.notices with
    | n :: rest => { l with notices := rest, lost := 0, sending := some (n.message l.lost) }
    | [] => { l with sending := none }

/-! ### Plate records -/

/-- The plate record with an id changed by `f`. -/
def State.modPlate (s : State) (id : Nat) (f : Plate → Plate) : State :=
  s.withTable { s.table with plates := s.table.plates.map fun p => if p.id = id then f p else p }

/-- A plate with one band record changed. -/
def Plate.modBand (p : Plate) (b : Nat) (f : Band → Band) : Plate := { p with bands := p.bands.modify b f }

/-- One band record of a plate changed. -/
def State.modBand (s : State) (id b : Nat) (f : Band → Band) : State := s.modPlate id fun p => p.modBand b f

/-- One damage record of a plate changed. -/
def State.modRecord (s : State) (id index : Nat) (f : DamageRecord → DamageRecord) : State :=
  s.modPlate id fun p => { p with damage := p.damage.modify index f }

/-- A plate leaves the plate queue (R11). -/
def State.leaveQueue (s : State) (id : Nat) : State :=
  s.withTable { s.table with queue := s.table.queue.filter fun q => !decide (q = id) }

/-- Buffers join the tail of the free list (R46). -/
def State.returnBuffers (s : State) (freed : List Nat) : State := s.withPool ⟨s.pool.free ++ freed⟩

/-! ### FEED HOLD and ring release -/

/-- FEED HOLD's conditions are tested; its release re-arms INTAKE STALL (R37). -/
def State.testHold (s : State) : State :=
  let hold := holdAfter s.feed.hold (frameLevel s.feed.buffer) s.segs.queue.length s.freeRing
  s.withFeed { s.feed with hold := hold, stallArmed := s.feed.stallArmed || (s.feed.hold && !hold) }

/-- Ring release: RENDERED and DEAD entries leave the head of the list, and each removal is a moment at which FEED HOLD is
tested (R45). The list is the queue as it stands. -/
def releaseFrom : List Entry → State → State
  | [], s => s
  | e :: rest, s =>
    if e.finished then releaseFrom rest (s.withSegs { s.segs with queue := rest }).testHold else s

/-- Ring release (R45). -/
def State.releaseRing (s : State) : State := releaseFrom s.segs.queue s

/-- The intake finishes the item at the head of the frame buffer: its bytes leave the buffer (R22). -/
def State.finishFrame (s : State) : State := (s.withFeed { s.feed with buffer := s.feed.buffer.drop 1 }).testHold

/-! ### Use counts (R81) -/

/-- The use count of the set a header names, raised or returned; a LINE header names none. -/
def returnUse (h : Header) (screens : List ScreenSet) : List ScreenSet :=
  match h.kind with
  | .line => screens
  | .tone => screens.modify h.screen fun x => { x with useCount := x.useCount - 1 }

/-- The use count raised at an accepted OPEN (R30). -/
def takeUse (h : Header) (screens : List ScreenSet) : List ScreenSet :=
  match h.kind with
  | .line => screens
  | .tone => screens.modify h.screen fun x => { x with useCount := x.useCount + 1 }

/-! ### Abandoning and discarding segments -/

/-- The entries in state `before` that satisfy `which` take state `after`. -/
def moveEntries (which : Entry → Bool) (before after : EntryState) (q : List Entry) : List Entry :=
  q.map fun e => if e.state = before ∧ which e then { e with state := after } else e

/-- A burst of the intake writer that is being carried out goes on, but its writer has given the frame up (R170). -/
def Arbiter.dropIntake (a : Arbiter) : Arbiter :=
  { a with burst := a.burst.map fun b => if b.who = .intake then { b with stale := true } else b }

/-- The open segment is abandoned, and the intake enters `next` (R33). A DATA frame being written is finished at the
abandonment (R22, R170), and ring release is tested (R45). Without an open segment nothing is abandoned. -/
def State.abandon (s : State) (reason : Abandon) (next : Intake) : State :=
  match s.feed.intake with
  | .assembling seg =>
    let s := s.withSegs { s.segs with queue := moveEntries (fun _ => true) .assembling .dead s.segs.queue }
    let s := s.withScreens (returnUse seg.header s.screens)
    let s := s.withFeed { s.feed with intake := next }
    let s := s.post (.segmentAbandoned seg.header.plate seg.header.band seg.header.seq seg.received reason)
    let s := s.withArbiter s.arbiter.dropIntake
    (if seg.writing.isSome then s.finishFrame else s).releaseRing
  | .unselected | .selected | .skipping => s

/-- Whether the open segment's header satisfies `which`. -/
def State.openMatches (s : State) (which : Header → Bool) : Bool :=
  match s.feed.intake with
  | .assembling seg => which seg.header
  | .unselected | .selected | .skipping => false

/-- The open segment is abandoned with reason INTERRUPTED where a plate or band event reaches it (R34). -/
def State.interrupt (s : State) (which : Header → Bool) : State :=
  if s.openMatches which then s.abandon .interrupted .skipping else s

/-- The QUEUED entries that satisfy `which`. -/
def State.queuedOf (s : State) (which : Entry → Bool) : List Entry :=
  s.segs.queue.filter fun e => decide (e.state = .queued) && which e

/-- The QUEUED entries that satisfy `which` become DEAD, and their screen sets' use counts are returned (R56, R57). -/
def State.discard (s : State) (which : Entry → Bool) : State :=
  (s.withScreens ((s.queuedOf which).foldl (fun x e => returnUse e.header x) s.screens)).withSegs
    { s.segs with queue := moveEntries which .queued .dead s.segs.queue }

/-- The entries of a plate record (R57). -/
def ofPlate (id : Nat) (e : Entry) : Bool := e.linked && decide (e.header.plate = id)

/-- The entries of a band record (R56). -/
def ofBand (id b : Nat) (e : Entry) : Bool := ofPlate id e && decide (e.header.band = b)

/-! ### Mark requests (R153) -/

/-- A mark request in its place: behind every request whose line is equal or lower. -/
def insertMark (r : MarkRequest) : List MarkRequest → List MarkRequest
  | [] => [r]
  | x :: rest => if x.line ≤ r.line then x :: insertMark r rest else r :: x :: rest

/-- A mark request made with a pattern: dropped where the queue already holds 8. -/
def Marks.request (m : Marks) (pattern line : Nat) (link : Option Nat) : Marks :=
  if m.queue.length < 8 then { m with queue := insertMark ⟨pattern, line, link⟩ m.queue } else m

/-- The mark pattern of a cause (R102). -/
def Setup.patternOf (u : Setup) (c : Cause) : Option Nat := u.patterns.getD c.pos none

/-- The mark request of a cause, made with the active setup's pattern; none where the pattern is none (R153). -/
def State.requestMark (s : State) (c : Cause) (line : Nat) (link : Option Nat) : State :=
  match s.engine.active.patternOf c with
  | none => s
  | some pattern => s.withMarks (s.marks.request pattern line link)

/-! ### Damage records (R148) -/

/-- A record with the fields every cause has. -/
def DamageRecord.basic (c : Cause) (copy band first last : Nat) : DamageRecord :=
  ⟨c, copy, band, first, last, none, none, none, none, none⟩

/-- The index a new record of a plate takes, none where the table is full (R148). -/
def State.recordIndex (s : State) (id : Nat) : Option Nat :=
  match s.plate? id with
  | some p => if p.damage.length < 64 then some p.damage.length else none
  | none => none

/-- A damage record made: stored with its DAMAGE notice, or counted in the overflow count (R148, R149). -/
def State.addRecord (s : State) (id : Nat) (r : DamageRecord) : State :=
  match s.recordIndex id with
  | some index => (s.modPlate id fun p => { p with damage := p.damage ++ [r] }).post (.damage id index r)
  | none => s.modPlate id fun p => { p with overflow := satAdd p.overflow 1 }

/-- A record made, and the mark request its cause calls for at that moment, linked to the record where it was stored
(R154). -/
def State.addMarked (s : State) (id : Nat) (r : DamageRecord) (line : Nat) : State :=
  (s.addRecord id r).requestMark r.cause line (s.recordIndex id)

/-- The last line of a linked record raised to `v`, or kept where it is already higher, and never past H - 1 (R137, R140);
the record is changed by `f` besides. -/
def State.extendRecord (s : State) (id : Nat) (link : Option Nat) (v : Nat) (f : DamageRecord → DamageRecord) : State :=
  match link, s.plate? id with
  | some index, some p => s.modRecord id index fun r => f { r with last := min (p.height - 1) (max r.last v) }
  | _, _ => s

/-! ### INTAKE STALL (R59) -/

/-- The queue position of a plate, from 1 at the head; 0 where it is not in the queue. -/
def State.position (s : State) (id : Nat) : Nat :=
  if id ∈ s.table.queue then (s.table.queue.takeWhile fun q => !decide (q = id)).length + 1 else 0

/-- The conditions of INTAKE STALL: FEED HOLD asserted, neither renderer busy, no QUEUED entry eligible, at least one
QUEUED. -/
def State.stalled (s : State) : Bool :=
  s.feed.hold && s.feed.stallArmed && s.decoder.isNone && s.screener.isNone && !(s.segs.queue.any s.eligible)

/-- INTAKE STALL posted where its conditions hold and it is armed; it is then disarmed for the hold episode (R59). Tested at
the end of every command (log 13). -/
def State.testStall (s : State) : State :=
  match s.segs.queue.find? fun e => decide (e.state = .queued) with
  | none => s
  | some e =>
    if s.stalled then
      (s.withFeed { s.feed with stallArmed := false }).post
        (.intakeStall s.segs.queue.length s.freeRing s.pool.free.length e.header.plate e.header.band e.header.seq
          (s.position e.header.plate))
    else s

/-! ### How a command is taken -/

/-- An event of the part's outside or of one of its blocks: not taken while the RESET pin is asserted (R183, log 8). -/
def State.event (s : State) (f : State → State) : Host.Outcome State Fault Refusal :=
  if s.pins.resetAsserted then .next s else .next (f s).testStall

/-- An event that happens only where `due` holds; elsewhere the part takes no such step and the state stands (log 1). -/
def State.eventWhen (s : State) (due : Bool) (f : State → State) : Host.Outcome State Fault Refusal :=
  if due then s.event f else .next s

/-- The request at the head of the buffer carried out, where one may begin and its kind is `kind` (R173, R175). -/
def State.carryOut (s : State) (kind : Byte) (f : Message → State → State) : Host.Outcome State Fault Refusal :=
  match s.due with
  | some m => if m.kind = kind then .next (f m s).testStall else .next s
  | none => .next s

end Sys2Proof.Machine
end

