-- ==== Sys2Proof/Machine/Engine.lean ====
section
/-! DEFINITION. What several commands do to the exposure engine and the plate it has taken: taking a plate, settling the
lead, stopping, entering IDLE, a drum fault, the end of a plate, the end of a copy. -/

namespace Sys2Proof.Machine

/-- A list with each element's index. -/
def indexed {α : Type} (l : List α) : List (Nat × α) := l.mapIdx fun i a => (i, a)

/-! ### Leaving IDLE (R100, R109) -/

/-- A standalone scan runs (R128). -/
def Activity.scanning : Activity → Bool
  | .scanSingle | .scanContinuous => true
  | .idle | .exposure => false

/-- The monitor with no activity and no step (R128: no step runs in IDLE). -/
def Monitor.stopped (m : Monitor) : Monitor := { m with activity := .idle, step := .none }

/-- A running scan is abandoned because the engine leaves IDLE, reason EXPOSURE (R144). -/
def State.abandonScan (s : State) : State :=
  if s.monitor.activity.scanning then
    (s.withMonitor s.monitor.stopped).post (.measureAbandoned true s.monitor.step.beam?)
  else s

/-- The index and first line of the newest stored DRUM record, if it has the given copy number (R155). -/
def Plate.drumRecord (p : Plate) (copy : Nat) : Option (Nat × Nat) :=
  match ((indexed p.damage).filter fun r => decide (r.2.cause = .drum)).getLast? with
  | some (i, r) => if r.copy = copy then some (i, r.first) else none
  | none => none

/-- The engine as its fetch starts at line 0 of a copy; the urgency is evaluated at once (R110). -/
def Engine.startFetch (e : Engine) : Engine := { e with fetchPos := 0, running := true }.testUrgency

/-- On leaving WAIT_LEAD: the mark request for the DRUM record of an earlier attempt at this copy, and the fetch's start
(R109, R155). -/
def State.leaveLead (s : State) (t : Taken) (p : Plate) : State :=
  let s := match p.drumRecord t.copy with
    | some (i, first) => s.requestMark .drum (first / 4 * 4) (some i)
    | none => s
  s.withEngine { s.engine with state := .waitDrum }.startFetch

/-- The engine leaves WAIT_LEAD once the first L bands of the plate taken are settled (R109). -/
def State.settleLead (s : State) : State :=
  match s.takenPlate? with
  | some (t, p) => if s.engine.state = .waitLead ∧ p.leadSettled then s.leaveLead t p else s
  | none => s

/-- The context as a plate is taken: a read that is still completing stays (R100). -/
def Engine.take (e : Engine) (t : Taken) : Engine :=
  { e with
    state := .waitLead, taken := some t, fetchPos := 0, running := false, fifo := [], urgent := false, swath := 0,
    edgeSeen := false, watchdog := none }

/-- An IDLE engine takes the head plate where it is LOADING and authorised (R100). -/
def State.takeHead (s : State) : State :=
  match s.table.queue.head?.bind s.plate? with
  | some p =>
    if s.engine.state = .idle ∧ p.state = .loading ∧ p.authorised then
      (((s.modPlate p.id fun p => { p with state := .active }).withEngine
        (s.engine.take ⟨p.id, p.completed + 1⟩)).abandonScan).settleLead
    else s
  | none => s

/-! ### Stopping (R122, R126, R140, R159) -/

/-- An open episode's record is extended to `v` and closed (R140). -/
def State.closeRecord (s : State) (id : Nat) (e : Episode) (v : Nat) : State :=
  match e with
  | .closed => s
  | .opened link => s.extendRecord id link v fun r => { r with opened := some false }

/-- Every open POWER episode and the open BLIND episode close, their records extended to the last line of the last swath
exposed (R140). -/
def State.closeEpisodes (s : State) : State :=
  match s.engine.taken with
  | some t =>
    let v := 4 * s.engine.swath - 1
    let m := s.monitor
    let s := beams.foldl (fun s k => s.closeRecord t.plate (m.power.get k) v) s
    let s := s.closeRecord t.plate m.blind v
    s.withMonitor { m with power := .all .closed, blind := .closed }
  | none => s

/-- The laser head's image output turned off. -/
def State.laserOff (s : State) : State := s.withPins { s.pins with laser := none }

/-- The engine as it stops: the fetch stops, a read in progress will be discarded, the FIFO is emptied, the watchdog is
disarmed (R122). -/
def Engine.stop (e : Engine) : Engine :=
  { e with
    running := false, read := e.read.map fun r => { r with fate := .discard }, fifo := [], urgent := false,
    watchdog := none }

/-- What a drum fault, an abort of the plate taken and the end of a copy have in common (R116, R122, R126, R159). At a copy's
end the FIFO is empty and the fetch has ended (R116); a read that still completes then is of a dropped line, and is
discarded (log 36). -/
def State.stopEngine (s : State) : State :=
  let s := s.laserOff.closeEpisodes
  ((s.withMonitor s.monitor.stopped).withMarks .reset).withEngine s.engine.stop

/-- The engine enters IDLE: the plate and copy number become absent, and a pending setup becomes the active one (R104). -/
def State.enterIdle (s : State) : State :=
  s.withEngine
    { s.engine with
      state := .idle, taken := none, active := s.engine.waiting.getD s.engine.active, waiting := none }

/-! ### The end of a plate (R8, R19, R57) -/

/-- A band of a plate that ended: EXPOSING returns to READY, and a buffer not under a render is given back (R8). -/
def Band.ended (b : Band) : Band :=
  { b with state := if b.state = .exposing then .ready else b.state, buffer := if b.rendering then b.buffer else none }

/-- The buffers a plate that ended gives back, in ascending band order (R8). -/
def Plate.freedBuffers (p : Plate) : List Nat := p.bands.filterMap fun b => if b.rendering then none else b.buffer

/-- A plate enters ABORTED or FAULTED: its flag, its place in the queue, its bands, its entries and its open segment (R3,
R8, R19, R57). The discarded entries count late for ABORTED only. -/
def State.endPlate (s : State) (p : Plate) (state : PlateState) (countLate : Bool) : State :=
  let n := if countLate then (s.queuedOf (ofPlate p.id)).length else 0
  let s := s.modPlate p.id fun q =>
    { q with state := state, authorised := false, bands := q.bands.map Band.ended, late := satAdd q.late n }
  ((((s.leaveQueue p.id).returnBuffers p.freedBuffers).discard (ofPlate p.id)).interrupt
    fun h => decide (h.plate = p.id)).releaseRing

/-! ### Drum faults (R121 to R125) -/

/-- The bands after a drum fault in a copy that is not final: EXPOSING returns to READY with its buffer (R8). -/
def Band.faulted (b : Band) : Band := { b with state := if b.state = .exposing then .ready else b.state }

/-- The DRUM record of a fault at swath `swath` (R122). -/
def drumRecordOf (p : Plate) (copy swath : Nat) : DamageRecord :=
  let first := min (4 * swath) (p.height - 1)
  .basic .drum copy (first / 256) first (p.height - 1)

/-- The plate's outcome at a drum fault: FAULTED in the final copy (R124), LOADING otherwise (R123). -/
def State.faultPlate (s : State) (p : Plate) (final : Bool) : State :=
  if final then s.endPlate p .faulted false
  else s.modPlate p.id fun q => { q with state := .loading, authorised := false, bands := q.bands.map Band.faulted }

/-- A drum fault (R122): the engine stops, a DRUM record is made, DRUM FAULT is posted, the plate takes its outcome, the
engine enters IDLE and may take another plate. -/
def State.drumFault (s : State) (cause : DrumCause) : State :=
  match s.takenPlate? with
  | some (t, p) =>
    let final := decide (t.copy = p.copies)
    let s' := (s.stopEngine.addRecord p.id (drumRecordOf p t.copy s.engine.swath)).post
      (.drumFault p.id t.copy s.engine.swath cause final)
    (s'.faultPlate p final).enterIdle.takeHead
  | none => s.stopEngine.enterIdle

/-! ### The end of a copy (R116 to R120) -/

/-- A band at the end of its fetch in a copy (R113): EXPOSING returns to READY, or in the final copy becomes EXPOSED and gives
its buffer back; any other band keeps its state. -/
def Band.fetched (final : Bool) (b : Band) : Band :=
  if b.state = .exposing then
    if final then { b with state := .exposed, buffer := none } else { b with state := .ready }
  else b

/-- The buffer that the end of a band's fetch gives back (R113). -/
def Band.fetchedBuffer (final : Bool) (b : Band) : Option Nat := if b.state = .exposing ∧ final then b.buffer else none

/-- By the INDEX that ends a copy the fetch of every band has ended (R116), and no band is EXPOSING (R117, R118): a band still
EXPOSING, because the read of its last line outlasts the copy, ends its fetch here (log 36). -/
def State.endCopyBands (s : State) (p : Plate) (final : Bool) : State :=
  (s.modPlate p.id fun q => { q with bands := q.bands.map (Band.fetched final) }).returnBuffers
    (p.bands.filterMap (Band.fetchedBuffer final))

/-- The next copy is prepared: CHANGE, AWAIT FALL, the next copy number, swath 0, the fetch at line 0 (R117). -/
def Engine.nextCopy (e : Engine) (t : Taken) : Engine :=
  { e with state := .change .awaitFall, taken := some ⟨t.plate, t.copy + 1⟩, swath := 0, edgeSeen := false }.startFetch

/-- The INDEX that ends a copy (R116, R159): the laser is off, the watchdog is disarmed, episodes close, the copy's fetch has
ended, the copy is counted, COPY DONE is posted, and the next copy is prepared (R117) or the plate is DONE (R118). -/
def State.endCopy (s : State) (t : Taken) (p : Plate) : State :=
  let s := s.stopEngine.endCopyBands p (!decide (p.completed + 1 < p.copies))
  let s := (s.modPlate p.id fun q => { q with completed := q.completed + 1 }).post
    (.copyDone p.id t.copy p.copies p.damage.length p.overflow)
  if p.completed + 1 < p.copies then s.withEngine (s.engine.nextCopy t)
  else
    (((s.modPlate p.id fun q => { q with state := .done }).leaveQueue p.id).post
      (.plateDone p.id (p.completed + 1) p.damage.length p.overflow)).enterIdle.takeHead

end Sys2Proof.Machine
end

