-- ==== Sys2Proof/Machine/Fetch.lean ====
section
/-! DEFINITION. The exposure fetch: the band decision and the band's end (R7, R112, R113), starvation (R56), and the lines of
a copy (R110). -/

namespace Sys2Proof.Machine

/-! ### The band decision (R112, R155) -/

/-- The index and cause of a plate's oldest stored record that satisfies `which`. -/
def Plate.oldest (p : Plate) (which : DamageRecord → Bool) : Option (Nat × Cause) :=
  ((indexed p.damage).find? fun r => which r.2).map fun r => (r.1, r.2.cause)

/-- The STARVED record of a band (R112). -/
def starvedRecord (p : Plate) (copy b : Nat) : DamageRecord := .basic .starved copy b (256 * b) (p.lastLine b)

/-- A band that starves: its buffer returns at once unless a render is in progress (R7). -/
def Band.starved (b : Band) : Band :=
  { b with state := .starved, buffer := if b.rendering then b.buffer else none }

/-- The buffer a starving band gives back. -/
def Band.starvedBuffer (b : Band) : List Nat := if b.rendering then [] else b.buffer.toList

/-- The band's QUEUED entries are discarded and counted late, and BAND LATE is posted where there were any (R56, R58). -/
def State.discardLate (s : State) (id b copy : Nat) : State :=
  let n := (s.queuedOf (ofBand id b)).length
  let s := (s.discard (ofBand id b)).modPlate id fun p => { p with late := satAdd p.late n }
  if n = 0 then s else s.post (.bandLate id b n copy)

/-- A band starves (R7, R56): record, discards, notices and ring release, in the order R56 gives. -/
def State.starve (s : State) (p : Plate) (copy b : Nat) (band : Band) : State :=
  let s := (s.modBand p.id b Band.starved).returnBuffers band.starvedBuffer
  let s := (s.addMarked p.id (starvedRecord p copy b) (256 * b)).discardLate p.id b copy
  (s.interrupt fun h => decide (h.plate = p.id) && decide (h.band = b)).releaseRing

/-- The mark request for a READY band with render damage (R155). -/
def State.markDamaged (s : State) (p : Plate) (b : Nat) : State :=
  match p.oldest fun r => (decide (r.cause = .code) || decide (r.cause = .content)) && decide (r.band = b) with
  | some (i, c) => s.requestMark c (256 * b) (some i)
  | none => s.requestMark .code (256 * b) none

/-- The mark request for a band already STARVED (R155). -/
def State.markStarved (s : State) (p : Plate) (b : Nat) : State :=
  s.requestMark .starved (256 * b)
    ((p.oldest fun r => decide (r.cause = .starved) && decide (r.band = b)).map Prod.fst)

/-- The band decision for band `b` of the plate taken (R7, R112). A band EXPOSING or EXPOSED at its decision, which no run
reaches because every band's fetch has ended by the copy's end (R117, log 36), is left as it is: the model's choice
(log 28). -/
def State.decideBand (s : State) (b : Nat) : State :=
  match s.takenPlate? with
  | some (t, p) =>
    match p.bands[b]? with
    | some band =>
      match band.state with
      | .ready =>
        let s := s.modBand p.id b fun x => { x with state := .exposing }
        if band.damaged then s.markDamaged p b else s
      | .empty | .filling => s.starve p t.copy b band
      | .starved => s.markStarved p b
      | .blank | .exposing | .exposed => s
    | none => s
  | none => s

/-! ### The end of a band's fetch, and of a copy's (R110, R113) -/

/-- A band's fetch ends in a copy (R113): an EXPOSING band returns to READY, or becomes EXPOSED and gives its buffer back in
the final copy. -/
def State.endBandFetch (s : State) (p : Plate) (copy b : Nat) : State :=
  match p.bands[b]? with
  | some band =>
    let final := !decide (copy < p.copies)
    (s.modBand p.id b (Band.fetched final)).returnBuffers (band.fetchedBuffer final).toList
  | none => s

/-- The fetch runs no longer. -/
def Engine.endFetch (e : Engine) : Engine := { e with running := false }.testUrgency

/-- A line of a copy has been produced or passed: its band's fetch ends with the band's last line (R113), the copy's fetch
with line 4N - 1 (R110). A line of a copy that the engine no longer works on ends nothing (R1, R122, log 36). -/
def State.passLine (s : State) (plate copy line : Nat) : State :=
  match s.takenPlate? with
  | some (t, p) =>
    if t = ⟨plate, copy⟩ then
      let s := if line < p.height ∧ p.lastLine (line / 256) = line then s.endBandFetch p copy (line / 256) else s
      if line + 1 = 4 * p.swaths then s.withEngine s.engine.endFetch else s
    else s
  | none => s

/-- A line joins the FIFO, and the urgency is tested (R110, R111). -/
def Engine.join (e : Engine) (line : Nat) (bytes : List Byte) : Engine :=
  { e with fifo := e.fifo ++ [FifoLine.mk line bytes] }.testUrgency

/-! ### Beginning a line (R110) -/

/-- Where line `l` of the plate is read from: the buffer of an EXPOSING band; none where the line is produced white. -/
def Plate.sourceOf (p : Plate) (l : Nat) : Option Nat :=
  if l < p.height then (p.bands[l / 256]?).bind fun b => if b.state = .exposing then b.buffer else none else none

/-- The read of line `l` from a buffer. -/
def readOf (t : Taken) (p : Plate) (l buffer : Nat) : FetchRead :=
  ⟨t.plate, t.copy, l, buffer * mib + bufferLine * (l % 256), p.lineBytes, [], .join⟩

/-- Line `l` is produced: read, or white at once. -/
def State.produceLine (s : State) (t : Taken) (p : Plate) (l : Nat) : State :=
  match p.sourceOf l with
  | some buffer => s.withEngine { s.engine with read := some (readOf t p l buffer) }
  | none => (s.withEngine (s.engine.join l (whiteBytes p.lineBytes))).passLine t.plate t.copy l

/-- The fetch may begin a line: it runs, nothing is being read, the FIFO has room, lines are left (R110). -/
def State.fetchDue (s : State) : Bool :=
  match s.takenPlate? with
  | some (_, p) =>
    s.engine.running && s.engine.read.isNone && decide (s.engine.fifo.length < 32)
      && decide (s.engine.fetchPos < 4 * p.swaths)
  | none => false

/-- The fetch begins line `l`: the fetch position moves on, the band decision is made at a band's first line, and the line
is produced (R110). -/
def State.beginLine (s : State) (l : Nat) : State :=
  let s := s.withEngine { s.engine with fetchPos := l + 1 }
  let s := match s.takenPlate? with
    | some (_, p) => if l % 256 = 0 ∧ l < p.height then s.decideBand (l / 256) else s
    | none => s
  match s.takenPlate? with
  | some (t, p) => s.produceLine t p l
  | none => s

/-- FETCH_LINE_BEGIN (R110). -/
def execFetchLineBegin (s : State) : Host.Outcome State Fault Refusal :=
  s.eventWhen s.fetchDue fun s => s.beginLine s.engine.fetchPos

/-! ### The read in progress (R110, R165) -/

/-- The burst the fetch asks for: the next 256 bytes of its read. -/
def FetchRead.burst (r : FetchRead) : Burst :=
  ⟨.fetch, r.addr + r.got.length, .read (min 256 (r.total - r.got.length)), false⟩

/-- The read has ended: its line joins the FIFO, is dropped but counts as produced, or is discarded (R110, R113, R122). -/
def State.endRead (s : State) (r : FetchRead) : State :=
  let s := s.withEngine { s.engine with read := none }
  match r.fate with
  | .join => (s.withEngine (s.engine.join r.line r.got)).passLine r.plate r.copy r.line
  | .drop => s.passLine r.plate r.copy r.line
  | .discard => s

/-- The fetch after its burst. -/
def State.fetchBurstDone (s : State) (bytes : List Byte) : State :=
  match s.engine.read with
  | some r =>
    let r := { r with got := r.got ++ bytes }
    if r.got.length < r.total then s.withEngine { s.engine with read := some r } else s.endRead r
  | none => s

end Sys2Proof.Machine
end

