-- ==== Sys2Proof/Machine/Marks.lean ====
section
/-! DEFINITION. The damage and marks unit: underrun records (R150), band signatures (R151, R152), the mark lane (R156), fixed
stamps (R157), the outgoing swath (R158), and the requests STAMP LOAD and PLATE REPORT. -/

namespace Sys2Proof.Machine

/-! ### Underrun records (R150) -/

/-- The last line of swath `sw` within the plate. -/
def Plate.swathEnd (p : Plate) (sw : Nat) : Nat := min (4 * sw + 3) (p.height - 1)

/-- The underrun swath `sw` goes on with the run: same band, next line. -/
def UnderrunRun.reaches (r : UnderrunRun) (sw : Nat) : Bool :=
  decide (r.band = 4 * sw / 256) && decide (r.last + 1 = 4 * sw)

/-- The UNDERRUN record of swath `sw`. -/
def underrunRecord (p : Plate) (copy sw : Nat) : DamageRecord :=
  .basic .underrun copy (4 * sw / 256) (4 * sw) (p.swathEnd sw)

/-- The underrun run set. -/
def State.setRun (s : State) (r : UnderrunRun) : State := s.withMarks { s.marks with run := some r }

/-- A new UNDERRUN record, with its mark request, and the run it begins (R150, R154). -/
def State.newUnderrun (s : State) (p : Plate) (copy sw : Nat) : State :=
  (s.addMarked p.id (underrunRecord p copy sw) (4 * sw)).setRun ⟨4 * sw / 256, p.swathEnd sw, s.recordIndex p.id⟩

/-- A run merged with swath `sw`: its record, where stored, takes the new last line (R150). -/
def State.mergeUnderrun (s : State) (p : Plate) (r : UnderrunRun) (sw : Nat) : State :=
  let s := s.setRun { r with last := p.swathEnd sw }
  match r.link with
  | some index => s.modRecord p.id index fun x => { x with last := p.swathEnd sw }
  | none => s

/-- Swath `sw` is an underrun (R150). -/
def State.noteUnderrun (s : State) (p : Plate) (copy sw : Nat) : State :=
  match s.marks.run with
  | some r => if r.reaches sw then s.mergeUnderrun p r sw else s.newUnderrun p copy sw
  | none => s.newUnderrun p copy sw

/-! ### Signatures (R151, R152) -/

/-- The SIGNATURE record of a band. -/
def signatureRecord (p : Plate) (copy b : Nat) : DamageRecord := .basic .signature copy b (256 * b) (p.lastLine b)

/-- A band's signature is set and compared with its expected one (R151, R152). -/
def State.setSignature (s : State) (p : Plate) (copy b line : Nat) (sig : Crc32) : State :=
  let s := (s.withMarks { s.marks with sig := none }).modBand p.id b fun x => { x with lastSig := some sig }
  match (p.bands[b]?).bind Band.expectedSig with
  | some e => if e = sig then s else s.addMarked p.id (signatureRecord p copy b) (4 * (line / 4))
  | none => s

/-- The accumulator as line `line` finds it: begun afresh at a band's first line (R151). -/
def Marks.sigAt (m : Marks) (line : Nat) : Option SigAcc :=
  if line % 256 = 0 then some ⟨line / 256, crc32Init⟩ else m.sig

/-- A line below H feeds the accumulator; a band's last line completes it (R151). -/
def State.feedLine (s : State) (p : Plate) (copy line : Nat) (bytes : List Byte) : State :=
  match s.marks.sigAt line with
  | some a =>
    let a := { a with crc := crc32Feed a.crc bytes }
    if p.lastLine (line / 256) = line then s.setSignature p copy a.band line (crc32Final a.crc)
    else s.withMarks { s.marks with sig := some a }
  | none => s

/-- The lines of a swath fed in order from `line` on; those at or past H are not (R151). -/
def feedLines (p : Plate) (copy : Nat) : Nat → List (List Byte) → State → State
  | _, [], s => s
  | line, bytes :: rest, s =>
    feedLines p copy (line + 1) rest (if line < p.height then s.feedLine p copy line bytes else s)

/-! ### The mark lane (R156) -/

/-- The mark line is set where the record has none (R147, R156). -/
def DamageRecord.marked (r : DamageRecord) (line : Nat) : DamageRecord := { r with markLine := some (r.markLine.getD line) }

/-- The mark lane acts on swath `sw` (R156). -/
def State.laneStep (s : State) (id sw : Nat) : State :=
  match s.marks.lane, s.marks.queue with
  | none, r :: rest =>
    if r.line ≤ 4 * sw + 3 then
      let s := s.withMarks { s.marks with queue := rest, lane := some ⟨r.pattern, 4 * sw⟩ }
      match r.link with
      | some index => s.modRecord id index fun x => x.marked (4 * sw)
      | none => s
    else s
  | none, [] | some _, _ => s

/-- The lane is free once the swath that holds the mark's last line has been handed (R156). -/
def Marks.laneAfter (m : Marks) (sw : Nat) : Marks :=
  match m.lane with
  | some d => if d.markLine + 63 ≤ 4 * sw + 3 then { m with lane := none } else m
  | none => m

/-! ### Ink (R156, R157) -/

/-- Byte `i` of a pattern row laid at a pixel that stands `shift` pixels into its first byte. -/
def rowByte (row : BitVec 64) (shift i : Nat) : Byte := ((row.zeroExtend 72 <<< (8 - shift)) >>> (64 - 8 * i)).truncate 8

/-- A pattern row laid on a line at plate pixel `x`: each ink pixel makes the line's pixel ink, and what lies past the line's
end is lost. -/
def layRow (x : Nat) (row : BitVec 64) (line : List Byte) : List Byte :=
  line.mapIdx fun j b => if x / 8 ≤ j ∧ j ≤ x / 8 + 8 then b ||| rowByte row (x % 8) (j - x / 8) else b

/-- Row `r` of a stamp store pattern. -/
def patternRow (stamps : List (List (BitVec 64))) (pattern r : Nat) : BitVec 64 := (stamps.getD pattern []).getD r 0

/-- A pattern whose first row stands on line `top`, at pixel `x`, laid on line `l`. -/
def layPattern (stamps : List (List (BitVec 64))) (pattern x top l : Nat) (line : List Byte) : List Byte :=
  if top ≤ l ∧ l ≤ top + 63 then layRow x (patternRow stamps pattern (l - top)) line else line

/-- The mark being drawn and the fixed stamps laid on line `l`, where it lies below H. -/
def State.inked (s : State) (p : Plate) (l : Nat) (line : List Byte) : List Byte :=
  if l < p.height then
    let line := match s.marks.lane with
      | some d => layPattern s.stamps d.pattern s.engine.active.laneX d.markLine l line
      | none => line
    p.stamps.foldl (fun x t => layPattern s.stamps t.pattern t.x t.y l x) line
  else line

/-! ### The outgoing swath (R158) -/

/-- Swath `sw` is handed to the unit: the underrun record or merge, the signature, the mark lane, the ink, the laser head
(R158). -/
def State.handSwath (s : State) (t : Taken) (p : Plate) (sw : Nat) (underrun : Bool) (lines : List (List Byte)) : State :=
  let s := if underrun then s.noteUnderrun p t.copy sw else s
  let s := (feedLines p t.copy (4 * sw) lines s).laneStep p.id sw
  let out := lines.mapIdx fun k line => s.inked p (4 * sw + k) line
  (s.withPins { s.pins with laser := some ⟨sw, out⟩ }).withMarks (s.marks.laneAfter sw)

/-! ### STAMP LOAD (R162) -/

/-- A plate is ACTIVE. -/
def State.anyActive (s : State) : Bool := s.table.plates.any fun p => decide (p.state = .active)

/-- The 64 rows of a STAMP LOAD body (R188). -/
def stampRows (body : List Byte) : List (BitVec 64) :=
  (List.range 64).map fun r => BitVec.ofNat 64 (field body (1 + 8 * r) 8)

/-- STAMP LOAD carried out (R162). -/
def stampLoad (m : Message) (s : State) : State :=
  let n := field m.body 0 1
  if m.body.length ≠ 513 then s.answer .badArg []
  else if 31 < n then s.answer .badArg []
  else if s.anyActive then s.answer .busy []
  else (s.withStamps (s.stamps.set n (stampRows m.body))).answer .ok []

/-- STAMP_LOAD (R162). -/
def execStampLoad (s : State) : Host.Outcome State Fault Refusal := s.carryOut kindStampLoad stampLoad

/-! ### PLATE REPORT (R163) -/

/-- PLATE REPORT carried out (R163). That the body's length is tested first is the model's choice (log 39). -/
def plateReport (m : Message) (s : State) : State :=
  if m.body.length = 3 then
    match s.plate? (field m.body 0 2) with
    | none => s.answer .notFound []
    | some p => s.answer .ok (p.reportBytes (field m.body 2 1))
  else s.answer .badArg []

/-- PLATE_REPORT (R163). -/
def execPlateReport (s : State) : Host.Outcome State Fault Refusal := s.carryOut kindPlateReport plateReport

end Sys2Proof.Machine
end

