-- ==== Sys2Proof/Machine/Monitor.lean ====
section
/-! DEFINITION. The exposure monitor: the two steps (R129 to R132), the choice of a gap's step (R135, R136), the judging of
readings (R137 to R139, R141), standalone scans (R142 to R145). -/

namespace Sys2Proof.Machine

/-! ### Steps (R128 to R130) -/

/-- A step begins: both counters at 0, the step gate at the active setup's gate, the step swath at the swath counter. -/
def State.beginStep (s : State) (step : Step) : State :=
  s.withMonitor
    { s.monitor with
      step := step, stepSwath := s.engine.swath, stepGate := s.engine.active.gate, gateCounter := 0, pulseCounter := 0 }

/-- The step in progress ends with what its counters have reached. -/
def Monitor.endStep (m : Monitor) (ticks pulses : Nat) : Monitor :=
  { m with step := .none, gateCounter := ticks, pulseCounter := pulses }

/-- The source of a reading (R132). -/
def Monitor.source (m : Monitor) : Source := if m.activity = .exposure then .exposure else .scan

/-- The reference with its count and gate, when VALID. -/
def Monitor.valid? (m : Monitor) : Option (Nat × Nat) :=
  match m.reference with
  | .valid n1 gate => some (n1, gate)
  | .none | .invalid => none

/-! ### The gaps of an exposure (R135, R136) -/

/-- A REF step begins, and revolutions since REF is 0 (R135). -/
def State.refGap (s : State) : State := (s.withMonitor { s.monitor with revolutions := 0 }).beginStep .ref

/-- A BEAM step for beam `k` begins, and the cursor becomes that beam (R135). -/
def State.beamGap (s : State) (k : Fin 4) : State := (s.withMonitor { s.monitor with cursor := some k }).beginStep (.beam k)

/-- The next enabled beam: above the cursor, otherwise the lowest (R135). -/
def State.nextBeam (s : State) : Option (Fin 4) :=
  match beamAbove s.engine.active.beams s.monitor.cursor with
  | some k => some k
  | none => beamAbove s.engine.active.beams none

/-- The step of a gap after the one that enters LEAD_IN (R135). -/
def State.openGap (s : State) : State :=
  if s.monitor.reference = .invalid then s.refGap
  else
    let s := s.withMonitor { s.monitor with revolutions := s.monitor.revolutions + 1 }
    if s.monitor.revolutions = s.engine.active.interval then s.refGap
    else
      match s.nextBeam with
      | some k => s.beamGap k
      | none => s

/-- The monitor begins a copy afresh (R136). -/
def Monitor.fresh (m : Monitor) : Monitor :=
  { m with
    activity := .exposure, reference := .none, revolutions := 0, cursor := none, previous := .all 0, power := .all .closed,
    blind := .closed }

/-! ### Judging (R137 to R139, R141) -/

/-- The BLIND record of a failure at step swath `sw` (R137). -/
def blindRecord (p : Plate) (copy sw : Nat) : DamageRecord :=
  { DamageRecord.basic .blind copy (4 * sw / 256) (4 * sw) (p.swathEnd sw) with opened := some true }

/-- A failed REF step of the exposure: the BLIND episode opens, with its record and REFERENCE FAULT, or its record is
extended (R137, R141). -/
def State.blindFailure (s : State) (t : Taken) (p : Plate) (outcome : RefOutcome) (n1 : Nat) : State :=
  let m := s.monitor
  match m.blind with
  | .closed =>
    let link := s.recordIndex p.id
    let s := s.addMarked p.id (blindRecord p t.copy m.stepSwath) (4 * m.stepSwath)
    (s.withMonitor { s.monitor with blind := .opened link }).post
      (.referenceFault p.id t.copy m.stepSwath outcome n1 m.stepGate)
  | .opened link => s.extendRecord p.id link (4 * m.stepSwath + 3) fun r => r

/-- A VALID REF step of the exposure closes the BLIND episode (R138). -/
def State.blindSuccess (s : State) (p : Plate) : State :=
  let m := s.monitor
  (s.closeRecord p.id m.blind (4 * m.stepSwath - 1)).withMonitor { m with blind := .closed }

/-- The POWER record of a reading at step swath `sw` with previous reading swath `prev` (R139). -/
def powerRecord (p : Plate) (copy : Nat) (k : Fin 4) (prev sw : Nat) (r : Reading) : DamageRecord :=
  { DamageRecord.basic .power copy (4 * prev / 256) (4 * prev) (min (p.height - 1) (max (4 * sw - 1) (4 * prev + 3))) with
    opened := some true, beam := some k, reading := some r }

/-- A reading as a POWER record holds it. -/
def Reading.of : Option Nat → Reading
  | some pi => .index pi
  | none => .timeout

/-- The POWER episode of beam `k` set. -/
def State.setPower (s : State) (k : Fin 4) (e : Episode) : State :=
  s.withMonitor { s.monitor with power := s.monitor.power.set k e }

/-- A reading of the exposure judged: its beam's POWER episode opens, is extended, or closes (R139). -/
def State.judgeEpisode (s : State) (t : Taken) (p : Plate) (k : Fin 4) (status : BeamStatus) (pi : Option Nat) : State :=
  let m := s.monitor
  let e := m.power.get k
  if status = .ok then (s.closeRecord p.id e (4 * m.stepSwath - 1)).setPower k .closed
  else
    match e with
    | .closed =>
      (s.addMarked p.id (powerRecord p t.copy k (m.previous.get k) m.stepSwath (.of pi)) (4 * m.stepSwath)).setPower k
        (.opened (s.recordIndex p.id))
    | .opened link => s.extendRecord p.id link (4 * m.stepSwath - 1) fun r => { r with reading := some (.of pi) }

/-- A reading of the exposure judged, and its swath kept (R139). -/
def State.judge (s : State) (k : Fin 4) (status : BeamStatus) (pi : Option Nat) : State :=
  let s := match s.takenPlate? with
    | some (t, p) => s.judgeEpisode t p k status pi
    | none => s
  s.withMonitor { s.monitor with previous := s.monitor.previous.set k s.monitor.stepSwath }

/-! ### The progress of a scan (R143, R144) -/

/-- A scan's REF step begins (R142, R143). The beam cursor is none at it, in the first pass as R142 says and in the later
passes of a CONTINUOUS scan by the model's choice (log 30). -/
def State.scanRef (s : State) : State := (s.withMonitor { s.monitor with cursor := none }).beginStep .ref

/-- The scan's next step after the cursor: a BEAM step, or a REF step of the next pass, or its end (R143). -/
def State.scanNext (s : State) : State :=
  match beamAbove s.monitor.scanSet s.monitor.cursor with
  | some k => s.beamGap k
  | none =>
    if s.monitor.activity = .scanContinuous then s.scanRef
    else s.withMonitor s.monitor.stopped

/-- This BEAM reading is the last of a SINGLE scan (R143). -/
def Monitor.lastReading (m : Monitor) (k : Fin 4) : Bool :=
  decide (m.activity = .scanSingle) && (beamAbove m.scanSet (some k)).isNone

/-! ### The ends of the steps (R129 to R132) -/

/-- The reference after a REF step (R129). -/
def Reference.after (outcome : RefOutcome) (n1 gate : Nat) : Reference :=
  match outcome with
  | .valid => .valid n1 gate
  | .fault | .timeout => .invalid

/-- A REF step of the exposure is judged (R137, R138). -/
def State.judgeRef (s : State) (outcome : RefOutcome) (n1 : Nat) : State :=
  match s.takenPlate? with
  | some (t, p) => if outcome = .valid then s.blindSuccess p else s.blindFailure t p outcome n1
  | none => s

/-- A scan goes on after its REF step, or is abandoned with reason REFERENCE (R143, R144). -/
def State.scanAfterRef (s : State) (outcome : RefOutcome) : State :=
  if outcome = .valid then s.scanNext
  else (s.withMonitor s.monitor.stopped).post (.measureAbandoned false none)

/-- A REF step ends (R129): the reading table, the reference, and what follows from them. -/
def State.endRef (s : State) (outcome : RefOutcome) (ticks n1 : Nat) : State :=
  let m := s.monitor
  let s := s.withMonitor
    { m.endStep ticks n1 with
      refTable := some ⟨n1, m.stepGate, outcome, m.source⟩, reference := .after outcome n1 m.stepGate }
  if m.activity.scanning then s.scanAfterRef outcome else s.judgeRef outcome n1

/-- A scan's BEAM reading is sent and the scan goes on (R143). -/
def State.scanAfterBeam (s : State) (k : Fin 4) (status : BeamStatus) (pi n2 : Option Nat) (n1 gate : Nat) : State :=
  (s.post (.measurement k status pi n1 gate n2 (s.monitor.lastReading k))).scanNext

/-- A BEAM step ends (R130, R131): the reading table, and what follows from the reading. The window is that of the setup active
at the step's end, also where EXPOSE SETUP was applied during a scan's step: the model's choice (log 37). -/
def State.endBeam (s : State) (k : Fin 4) (ticks pulses : Nat) (n2 : Option Nat) : State :=
  let m := s.monitor
  match m.valid? with
  | some (n1, gate) =>
    let pi := n2.map (powerIndex gate)
    let status := beamStatus (s.engine.active.windows.get k) pi
    let s := s.withMonitor
      { m.endStep ticks pulses with beamTable := m.beamTable.set k (some ⟨pi, status, m.source⟩) }
    if m.activity.scanning then s.scanAfterBeam k status pi n2 n1 gate else s.judge k status pi
  | none => s.withMonitor (m.endStep ticks pulses)

/-- A step still running is ended early, as a TIMEOUT (R134). -/
def State.cutStep (s : State) (ticks pulses : Nat) : State :=
  match s.monitor.step with
  | .none => s
  | .ref => s.endRef .timeout ticks pulses
  | .beam k => s.endBeam k ticks pulses none

/-! ### The commands of the steps -/

/-- REF_STEP_END (R129): the gate counter has reached the step gate with this pulse count. -/
def execRefStepEnd (pulses : BitVec 24) (s : State) : Host.Outcome State Fault Refusal :=
  s.eventWhen (decide (s.monitor.step = .ref)) fun s =>
    s.endRef (if 64 ≤ pulses.toNat then .valid else .fault) s.monitor.stepGate pulses.toNat

/-- The beam of the BEAM step in progress, against a VALID reference. -/
def State.measuring (s : State) : Option (Fin 4 × Nat) :=
  match s.monitor.step.beam?, s.monitor.valid? with
  | some k, some (n1, _) => some (k, n1)
  | _, _ => none

/-- BEAM_STEP_PULSE_END (R130): the pulse counter has reached N1 at this gate count. -/
def execBeamStepPulseEnd (ticks : BitVec 24) (s : State) : Host.Outcome State Fault Refusal :=
  match s.measuring with
  | some (k, n1) => s.event fun s => s.endBeam k ticks.toNat n1 (some ticks.toNat)
  | none => .next s

/-- BEAM_STEP_GATE_TIMEOUT (R130): the gate counter has reached its top with this pulse count. -/
def execBeamStepGateTimeout (pulses : BitVec 24) (s : State) : Host.Outcome State Fault Refusal :=
  match s.measuring with
  | some (k, _) => s.event fun s => s.endBeam k counterTop pulses.toNat none
  | none => .next s

/-! ### MONITOR READ (R133) -/

/-- MONITOR READ carried out (R133). -/
def monitorRead (m : Message) (s : State) : State :=
  if m.body = [] then s.answer .ok s.monitor.bytes else s.answer .badArg []

/-- MONITOR_READ (R133). -/
def execMonitorRead (s : State) : Host.Outcome State Fault Refusal := s.carryOut kindMonitorRead monitorRead

/-! ### MONITOR MEASURE (R142) -/

/-- The activity of a scan by the mode byte (R188). -/
def scanActivity (mode : Nat) : Activity := if mode = 0 then .scanSingle else .scanContinuous

/-- A scan begins (R142). -/
def State.beginScan (s : State) (set mode : Nat) : State :=
  (s.withMonitor { s.monitor with activity := scanActivity mode, scanSet := BitVec.ofNat 4 set }).scanRef

/-- MONITOR MEASURE carried out (R142). -/
def monitorMeasure (m : Message) (s : State) : State :=
  let set := field m.body 0 1
  let mode := field m.body 1 1
  if m.body.length ≠ 2 ∨ 15 < set ∨ 1 < mode then s.answer .badArg []
  else if set = 0 then s.answer .badArg []
  else if s.engine.state ≠ .idle then s.answer .busy []
  else if s.monitor.activity.scanning then s.answer .busy []
  else (s.beginScan set mode).answer .ok []

/-- MONITOR_MEASURE (R142). -/
def execMonitorMeasure (s : State) : Host.Outcome State Fault Refusal := s.carryOut kindMonitorMeasure monitorMeasure

/-! ### MONITOR STOP (R145) -/

/-- MONITOR STOP carried out (R145). With a body and no scan running R145 gives both BADARG and STATE and no order; that the body
is tested first, and the reply is BADARG, is the model's choice (log 39). -/
def monitorStop (m : Message) (s : State) : State :=
  if m.body ≠ [] then s.answer .badArg []
  else if s.monitor.activity.scanning then
    (s.withMonitor s.monitor.stopped).answer .ok (encBE 1 s.monitor.step.pos)
  else s.answer .state []

/-- MONITOR_STOP (R145). -/
def execMonitorStop (s : State) : Host.Outcome State Fault Refusal := s.carryOut kindMonitorStop monitorStop

end Sys2Proof.Machine
end

