-- ==== Sys2Proof/Machine/Exposure.lean ====
section
/-! DEFINITION. Exposure: PLATE EXPOSE and EXPOSE SETUP, and the drum's events: INDEX, IMAGE EDGE, the changes of DRUM READY,
the index watchdog (R101, R103, R105, R106, R108, R114 to R117, R121). -/

namespace Sys2Proof.Machine

/-! ### PLATE EXPOSE (R101) -/

/-- A plate is authorised, and the engine takes it if it may (R100, R101). -/
def State.authorise (s : State) (id : Nat) : State := (s.modPlate id fun p => { p with authorised := true }).takeHead

/-- PLATE EXPOSE carried out (R101). That the body's length is tested first is the model's choice (log 39). -/
def plateExpose (m : Message) (s : State) : State :=
  match plateIdBody m.body with
  | none => s.answer .badArg []
  | some id =>
    match s.plate? id with
    | none => s.answer .notFound []
    | some p => if p.state = .loading then (s.authorise id).answer .ok [] else s.answer .state []

/-- PLATE_EXPOSE (R101). -/
def execPlateExpose (s : State) : Host.Outcome State Fault Refusal := s.carryOut kindPlateExpose plateExpose

/-! ### EXPOSE SETUP (R103) -/

/-- The conditions under which a setup is refused (R103); `beamByte` is the beam set byte as received. -/
def Setup.refused (u : Setup) (beamByte : Nat) : Bool :=
  decide (u.demand < 4) || decide (u.timeout = 0 ∨ 10000 < u.timeout) || decide (32704 < u.laneX)
    || u.patterns.any (fun x => decide (31 < x.getD 0)) || decide (u.gate < 1024)
    || decide (u.interval < 16 ∨ 1024 < u.interval) || decide (15 < beamByte)
    || Sys2Proof.Machine.beams.any fun k => decide ((u.windows.get k).hi < (u.windows.get k).lo)

/-- A setup as stored: D above 24 is stored as 24 (R103). -/
def Setup.clamped (u : Setup) : Setup := { u with demand := min u.demand 24 }

/-- A setup stored: active in IDLE, pending in any other state (R103). -/
def Engine.store (e : Engine) (u : Setup) : Engine :=
  if e.state = .idle then { e with active := u } else { e with waiting := some u }

/-- EXPOSE SETUP carried out (R103). -/
def exposeSetup (m : Message) (s : State) : State :=
  match exposeSetupBody m.body with
  | none => s.answer .badArg []
  | some (u, beamByte) =>
    if u.refused beamByte then s.answer .badArg []
    else
      (s.withEngine (s.engine.store u.clamped)).answer .ok
        (encBool (!decide (s.engine.state = .idle)) ++ encBE 1 u.clamped.demand ++ encBool (decide (24 < u.demand)))

/-- EXPOSE_SETUP (R103). -/
def execExposeSetup (s : State) : Host.Outcome State Fault Refusal := s.carryOut kindExposeSetup exposeSetup

/-! ### INDEX (R105, R106, R116, R117) -/

/-- The engine as a revolution begins: edge seen no, the watchdog restarted with the full index timeout (R105, R108). -/
def Engine.newRevolution (e : Engine) : Engine := { e with edgeSeen := false, watchdog := some e.active.timeout }

/-- The engine enters LEAD_IN: swath 0, the watchdog armed, the monitor begun afresh with a REF step (R105, R135, R136). -/
def State.enterLeadIn (s : State) : State :=
  ((s.withEngine { s.engine.newRevolution with state := .leadIn, swath := 0 }).withMonitor s.monitor.fresh).refGap

/-- The INDEX that ends LEAD_IN: a step still running ends as a TIMEOUT, the engine enters EXPOSING, the next step begins
(R105, R134). -/
def State.enterExposing (s : State) (ticks pulses : Nat) : State :=
  let s := s.cutStep ticks pulses
  (s.withEngine { s.engine.newRevolution with state := .exposing }).openGap

/-- INDEX in EXPOSING (R106): a fault where IMAGE EDGE is missing, a new revolution, or the end of the copy. -/
def State.indexExposing (s : State) : State :=
  match s.takenPlate? with
  | some (t, p) =>
    if s.engine.edgeSeen then
      if s.engine.swath < p.swaths then (s.laserOff.withEngine s.engine.newRevolution).openGap else s.endCopy t p
    else s.drumFault .edgeMissing
  | none => s

/-- INDEX taken, by the engine's state. -/
def State.takeIndex (s : State) (ticks pulses : Nat) : State :=
  match s.engine.state with
  | .waitDrum => if s.pins.drumReady then s.enterLeadIn else s
  | .leadIn => s.enterExposing ticks pulses
  | .exposing => s.indexExposing
  | .change .awaitIndex => s.enterLeadIn
  | .idle | .waitLead | .change .awaitFall | .change .awaitRise => s

/-- INDEX (R106). -/
def execIndex (ticks pulses : BitVec 24) (s : State) : Host.Outcome State Fault Refusal :=
  s.event fun s => s.takeIndex ticks.toNat pulses.toNat

/-! ### Swaths (R114, R115) -/

/-- The lines of swath `sw`. -/
def swathLines (sw : Nat) : List Nat := [4 * sw, 4 * sw + 1, 4 * sw + 2, 4 * sw + 3]

/-- The four lines of swath `sw` are the first four of the FIFO (R114). -/
def Engine.holdsSwath (e : Engine) (sw : Nat) : Bool := decide ((e.fifo.take 4).map FifoLine.line = swathLines sw)

/-- Swath `sw` leaves the FIFO and is handed to the damage and marks unit (R114). -/
def State.exposeSwath (s : State) (t : Taken) (p : Plate) (sw : Nat) : State :=
  let lines := (s.engine.fifo.take 4).map FifoLine.bytes
  let s := s.withEngine { s.engine with fifo := s.engine.fifo.drop 4 }.testUrgency
  s.handSwath t p sw false lines

/-- The lines that an underrun drops: those of swath `sw` in the FIFO, and the line under read if it is one of them
(R115). -/
def Engine.dropSwath (e : Engine) (sw : Nat) : Engine :=
  { e with
    fifo := e.fifo.filter fun l => !(swathLines sw).contains l.line
    read := e.read.map fun r =>
      if (swathLines sw).contains r.line ∧ r.fate = .join then { r with fate := .drop } else r }

/-- Line `l` is passed by the skip: its band is decided at its first line, its band's fetch ends with its last (R115). -/
def State.skipLine (s : State) (l : Nat) : State :=
  let s := match s.takenPlate? with
    | some (_, p) => if l % 256 = 0 ∧ l < p.height then s.decideBand (l / 256) else s
    | none => s
  match s.takenPlate? with
  | some (t, _) => s.passLine t.plate t.copy l
  | none => s

/-- The fetch skips to the line after swath `sw` where it has not passed it (R115). -/
def State.skipTo (s : State) (sw : Nat) : State :=
  let pos := s.engine.fetchPos
  if pos ≤ 4 * sw + 3 then
    (List.range' pos (4 * sw + 4 - pos)).foldl State.skipLine (s.withEngine { s.engine with fetchPos := 4 * sw + 4 })
  else s

/-- Swath `sw` is an underrun: its lines are dropped, the fetch skips, and white is handed to the unit (R115). -/
def State.underrunSwath (s : State) (sw : Nat) : State :=
  let s := (s.withEngine (s.engine.dropSwath sw)).skipTo sw
  let s := s.withEngine s.engine.testUrgency
  match s.takenPlate? with
  | some (t, p) => s.handSwath t p sw true (List.replicate 4 (whiteBytes p.lineBytes))
  | none => s

/-- The swath due is exposed or is an underrun, and the swath counter rises by 1 (R106, R114, R115). -/
def State.takeSwath (s : State) (t : Taken) (p : Plate) : State :=
  let sw := s.engine.swath
  let s := if s.engine.holdsSwath sw then s.exposeSwath t p sw else s.underrunSwath sw
  s.withEngine { s.engine with swath := sw + 1 }

/-! ### IMAGE EDGE (R105, R106, R134) -/

/-- IMAGE EDGE in EXPOSING with edge seen no: the swath, then the judgement of a step still running (R106, R134, R158). -/
def State.edgeExposing (s : State) (ticks pulses : Nat) : State :=
  match s.takenPlate? with
  | some (t, p) => ((s.withEngine { s.engine with edgeSeen := true }).takeSwath t p).cutStep ticks pulses
  | none => s

/-- IMAGE EDGE taken, by the engine's state. -/
def State.takeEdge (s : State) (ticks pulses : Nat) : State :=
  if s.engine.edgeSeen then s
  else
    match s.engine.state with
    | .leadIn => (s.withEngine { s.engine with edgeSeen := true }).cutStep ticks pulses
    | .exposing => s.edgeExposing ticks pulses
    | .idle | .waitLead | .waitDrum | .change _ => s

/-- IMAGE_EDGE (R106). -/
def execImageEdge (ticks pulses : BitVec 24) (s : State) : Host.Outcome State Fault Refusal :=
  s.event fun s => s.takeEdge ticks.toNat pulses.toNat

/-! ### DRUM READY (R106, R117, R121) -/

/-- The DRUM READY level as it now stands on the pin. -/
def State.setDrumReady (s : State) (level : Bool) : State := s.withPins { s.pins with drumReady := level }

/-- DRUM READY falling, by the engine's state. -/
def State.readyFalls (s : State) : State :=
  match s.engine.state with
  | .leadIn | .exposing => s.drumFault .readyLost
  | .change .awaitFall | .change .awaitIndex => s.withEngine { s.engine with state := .change .awaitRise }
  | .idle | .waitLead | .waitDrum | .change .awaitRise => s

/-- DRUM READY rising, by the engine's state. -/
def State.readyRises (s : State) : State :=
  match s.engine.state with
  | .change .awaitRise => s.withEngine { s.engine with state := .change .awaitIndex }
  | .idle | .waitLead | .waitDrum | .leadIn | .exposing | .change .awaitFall | .change .awaitIndex => s

/-- DRUM_READY_FALL (R121). The level on the pin changes also while RESET is asserted; the event is then not taken
(log 8). -/
def execDrumReadyFall (s : State) : Host.Outcome State Fault Refusal := (s.setDrumReady false).event State.readyFalls

/-- DRUM_READY_RISE (R117). -/
def execDrumReadyRise (s : State) : Host.Outcome State Fault Refusal := (s.setDrumReady true).event State.readyRises

/-! ### The index watchdog (R108) -/

/-- The watchdog can expire: it is armed, in LEAD_IN or EXPOSING. -/
def State.watchdogArmed (s : State) : Bool :=
  s.engine.watchdog.isSome && (decide (s.engine.state = .leadIn) || decide (s.engine.state = .exposing))

/-- INDEX_WATCHDOG_EXPIRY (R108). -/
def execIndexWatchdogExpiry (s : State) : Host.Outcome State Fault Refusal :=
  s.eventWhen s.watchdogArmed fun s => s.drumFault .watchdog

end Sys2Proof.Machine
end

