-- ==== Sys2Proof/Machine/FeedLine.lean ====
section
/-! DEFINITION. The page feed: the line receiver and the frame buffer (R21 to R23, R194), the intake's commands (R25 to R33),
and FEED CLEAR (R39). -/

namespace Sys2Proof.Machine

/-! ### The line receiver (R22, R23, R194) -/

/-- The bytes a frame will occupy: its full length, or 5 for a body longer than 4096 bytes (R22). -/
def frameSpace (length : Nat) : Nat := if 4096 < length then 5 else length + 5

/-- A frame is stored at the tail as it begins to arrive (R22). -/
def Feed.store (f : Feed) (kind : Byte) (length : Nat) : Feed :=
  { f with
    receiver := if 4096 < length then .overlong kind length else .stored kind length
    lastLost := false
    buffer := f.buffer ++ [.frame kind (frameSpace length) .arriving] }

/-- A frame is lost: the overrun count rises, and a loss mark is placed unless the frame before it was lost too (R23). -/
def Feed.lose (f : Feed) (length : Nat) : Feed :=
  { f with
    receiver := .lost length
    lastLost := true
    buffer := if f.lastLost then f.buffer else f.buffer ++ [.loss]
    counters := { f.counters with overruns := satAdd f.counters.overruns 1 } }

/-- The frame buffer has room for a frame with a body of `length` bytes (R22). -/
def Feed.hasRoom (f : Feed) (length : Nat) : Bool :=
  decide (frameLevel f.buffer + frameSpace length ≤ frameBufferSize)

/-- A frame begins to arrive: stored, or lost for want of room. -/
def State.frameStart (s : State) (kind : Byte) (length : Nat) : State :=
  if s.feed.hasRoom length then (s.withFeed (s.feed.store kind length)).testHold else s.withFeed (s.feed.lose length)

/-- FRAME_ARRIVAL_START (R22, R23): taken while the receiver is between frames. -/
def execFrameArrivalStart (kind : Byte) (length : BitVec 16) (s : State) : Host.Outcome State Fault Refusal :=
  s.eventWhen (decide (s.feed.receiver = .between)) fun s => s.frameStart kind length.toNat

/-- The frame that is still arriving takes its content and the bytes it occupies from `g`. -/
def settleArriving (g : Byte → Nat → FrameItem) (items : List FrameItem) : List FrameItem :=
  items.map fun it =>
    match it with
    | .frame kind space .arriving => g kind space
    | .frame kind space (.good body) => .frame kind space (.good body)
    | .frame kind space .checkError => .frame kind space .checkError
    | .loss => .loss

/-- What a frame whose last byte has arrived is held as (R21). -/
def receivedContent (kind : Byte) (body : List Byte) (crc : Crc16) : FrameContent :=
  if frameGood kind body crc then .good body else .checkError

/-- The feed after the last byte of the frame it follows: a stored frame is judged, an overlong one is a check-error frame
whatever came, a lost one leaves nothing (R21, R22, R23). -/
def Feed.endFrame (f : Feed) (body : List Byte) (crc : Crc16) : Feed :=
  match f.receiver with
  | .between => f
  | .lost _ => { f with receiver := .between }
  | .stored _ _ =>
    { f with
      receiver := .between
      buffer := settleArriving (fun k n => .frame k n (receivedContent k body crc)) f.buffer }
  | .overlong _ _ =>
    { f with receiver := .between, buffer := settleArriving (fun k n => .frame k n .checkError) f.buffer }

/-- The frame being followed ends with a body of `n` bytes: it is followed by the length it announced, whether it is stored,
held empty-bodied or lost (R194). -/
def FeedReceiver.endsWith (n : Nat) : FeedReceiver → Bool
  | .between => false
  | .stored _ length | .overlong _ length | .lost length => decide (length = n)

/-- FRAME_ARRIVAL_END (R21, R22). -/
def execFrameArrivalEnd (body : List Byte) (crc : Crc16) (s : State) : Host.Outcome State Fault Refusal :=
  s.eventWhen (s.feed.receiver.endsWith body.length) fun s => s.withFeed (s.feed.endFrame body crc)

/-- The feed after a gap ends the frame it follows: a stored frame is a check-error frame of 5 bytes, a lost one stays lost
(R194). -/
def Feed.cutFrame (f : Feed) : Feed :=
  match f.receiver with
  | .between => f
  | .lost _ => { f with receiver := .between }
  | .stored _ _ | .overlong _ _ =>
    { f with receiver := .between, buffer := settleArriving (fun k _ => .frame k 5 .checkError) f.buffer }

/-- FEED_FRAME_GAP (R194): taken while a frame is being followed. -/
def execFeedFrameGap (s : State) : Host.Outcome State Fault Refusal :=
  s.eventWhen (!decide (s.feed.receiver = .between)) fun s => (s.withFeed s.feed.cutFrame).testHold

/-! ### Taking a frame (R22) -/

/-- Whether the intake is finishing a DATA frame. -/
def Intake.writing : Intake → Bool
  | .assembling seg => seg.writing.isSome
  | .unselected | .selected | .skipping => false

/-- The body of the good frame of kind `kind` that the intake may take now: it stands at the head of the frame buffer, and
the frame before it is finished (R22). -/
def State.goodFrame (s : State) (kind : Byte) : Option (List Byte) :=
  match s.feed.buffer with
  | .frame k _ (.good body) :: _ => if k = kind ∧ s.feed.intake.writing = false then some body else none
  | _ => none

/-- A good frame of kind `kind` taken, where there is one to take; elsewhere the state stands. -/
def State.takeFrame (s : State) (kind : Byte) (f : List Byte → State → State) : Host.Outcome State Fault Refusal :=
  match s.goodFrame kind with
  | some body => s.event (f body)
  | none => .next s

/-- The feed counters changed. -/
def State.count (s : State) (f : Counters → Counters) : State := s.withFeed { s.feed with counters := f s.feed.counters }

/-- The intake's state changed. -/
def State.setIntake (s : State) (i : Intake) : State := s.withFeed { s.feed with intake := i }

/-! ### SELECT (R26) -/

/-- The mask names this unit (R26, R194). -/
def State.named (s : State) (mask : Nat) : Bool := mask.testBit s.pins.address.toNat

/-- A good SELECT taken (R26). -/
def takeSelect (body : List Byte) (s : State) : State :=
  let entered : Intake := if s.named (field body 0 2) then .selected else .unselected
  ((s.abandon .interrupted entered).setIntake entered).finishFrame

/-- SELECT (R26). -/
def execSelectFrame (s : State) : Host.Outcome State Fault Refusal := s.takeFrame kindSelect takeSelect

/-! ### OPEN (R27 to R30) -/

/-- The state of a set's READY parameters, if it is READY. -/
def State.readySet (s : State) (n : Nat) : Option ScreenParams :=
  match (s.screens[n]?).map ScreenSet.state with
  | some (.ready p) => some p
  | some .free | some (.loading _) | none => none

/-- The BADPARAM conditions of R28. -/
def RawHeader.badParam (r : RawHeader) : Bool :=
  r.segKind?.isNone || r.paintMode?.isNone || decide (r.w = 0 ∨ 32768 < r.w) || decide (r.h = 0 ∨ 256 < r.h)
    || decide (r.declared = 0 ∨ 16777216 < r.declared)
    || (decide (r.segKind? = some .tone)
      && (decide (r.sw = 0 ∨ 4096 < r.sw) || decide (r.sh = 0 ∨ 4096 < r.sh) || decide (r.declared ≠ r.sw * r.sh)
        || decide (7 < r.screen) || r.checkPresent))

/-- A live entry with the same identity (R28, R43). -/
def State.liveTwin (s : State) (r : RawHeader) : Bool :=
  s.segs.queue.any fun e =>
    e.live && decide (e.header.plate = r.plate) && decide (e.header.band = r.band) && decide (e.header.seq = r.seq)

/-- The checks on an OPEN in the order of R28: the reason of the first that fails. -/
def State.openCheck (s : State) (r : RawHeader) : Option Refuse :=
  match s.plate? r.plate with
  | none => some .noPlate
  | some p =>
    if !p.live then some .noPlate
    else
      match p.bands[r.band]? with
      | none => some .badBand
      | some b =>
        if b.expected ≤ r.seq then some .badSeq
        else if b.state = .exposing ∨ b.state = .exposed ∨ b.state = .starved then some .late
        else if s.liveTwin r ∨ r.seq < b.nextSeq then some .dup
        else if p.width ≤ r.x0 ∨ p.bandHeight r.band ≤ r.y0 then some .badRect
        else if r.badParam then some .badParam
        else if r.segKind? = some .tone ∧ (s.readySet r.screen).isNone then some .noScreen
        else if 256 ≤ s.segs.queue.length ∨ s.freeRing < r.declared then some .noRoom
        else none

/-- A refused OPEN (R29): counted, noticed unless DUP, and counted late for the plate where LATE. -/
def State.refuseOpen (s : State) (r : RawHeader) (reason : Refuse) : State :=
  let s := s.setIntake .skipping
  match reason with
  | .dup => s.count fun c => { c with duplicates := satAdd c.duplicates 1 }
  | _ =>
    let s := s.count fun c => { c with refusals := satAdd c.refusals 1 }
    let s := if reason = .late then s.modPlate r.plate fun p => { p with late := satAdd p.late 1 } else s
    s.post (.segmentRefused r.plate r.band r.seq r.kind reason)

/-- An accepted OPEN (R30): an ASSEMBLING entry at the tail, its ring space reserved (R44), the set's use count raised, the
open-segment record made (R24). -/
def State.acceptOpen (s : State) (h : Header) : State :=
  let offset := s.segs.writePos
  let s := s.withSegs ⟨s.segs.queue ++ [⟨h, true, offset, .assembling⟩], (offset + h.declared) % ringSize⟩
  let s := s.withScreens (takeUse h s.screens)
  (s.setIntake (.assembling ⟨h, offset, 0, crc32Init, none⟩)).testHold

/-- An OPEN checked, and accepted or refused (R27 to R30). -/
def State.tryOpen (s : State) (r : RawHeader) : State :=
  match s.openCheck r with
  | some reason => s.refuseOpen r reason
  | none =>
    match r.segKind?, r.paintMode? with
    | some kind, some mode => s.acceptOpen (r.toHeader kind mode)
    | _, _ => s.refuseOpen r .badParam

/-- A good OPEN taken (R27). -/
def takeOpen (body : List Byte) (s : State) : State :=
  match s.feed.intake with
  | .unselected => s.finishFrame
  | .selected | .skipping => (s.tryOpen (openHeader body)).finishFrame
  | .assembling _ => ((s.abandon .interrupted .selected).tryOpen (openHeader body)).finishFrame

/-- OPEN (R27 to R30). -/
def execOpenFrame (s : State) : Host.Outcome State Fault Refusal := s.takeFrame kindOpen takeOpen

/-! ### DATA (R31) -/

/-- A stray DATA or CLOSE frame counted (R38). -/
def State.stray (s : State) : State := s.count fun c => { c with strays := satAdd c.strays 1 }

/-- A good DATA frame taken (R31). A payload that fits is handed to the intake writer, and the frame is finished with its
last burst (log 15). -/
def takeData (body : List Byte) (s : State) : State :=
  match s.feed.intake with
  | .assembling seg =>
    if seg.received + body.length ≤ seg.header.declared then
      s.setIntake (.assembling { seg with writing := some (body, 0) })
    else (s.abandon .length .skipping).finishFrame
  | .selected => s.stray.finishFrame
  | .unselected | .skipping => s.finishFrame

/-- DATA (R31). -/
def execDataFrame (s : State) : Host.Outcome State Fault Refusal := s.takeFrame kindData takeData

/-! ### CLOSE (R32) -/

/-- The open segment becomes QUEUED and its record ends (R32). -/
def State.completeSegment (s : State) : State :=
  (s.withSegs { s.segs with queue := moveEntries (fun _ => true) .assembling .queued s.segs.queue }).setIntake .selected

/-- A good CLOSE taken (R32). -/
def takeClose (body : List Byte) (s : State) : State :=
  match s.feed.intake with
  | .assembling seg =>
    (if seg.received ≠ seg.header.declared then s.abandon .length .selected
      else if crc32Final seg.check ≠ BitVec.ofNat 32 (field body 0 4) then s.abandon .payload .selected
      else s.completeSegment).finishFrame
  | .selected => s.stray.finishFrame
  | .unselected | .skipping => s.finishFrame

/-- CLOSE (R32). -/
def execCloseFrame (s : State) : Host.Outcome State Fault Refusal := s.takeFrame kindClose takeClose

/-! ### Check-error frames and loss marks (R23, R25) -/

/-- The kind field of the check-error frame the intake may take now. -/
def State.badFrame (s : State) : Option Byte :=
  match s.feed.buffer with
  | .frame k _ .checkError :: _ => if s.feed.intake.writing then none else some k
  | _ => none

/-- A check-error frame taken (R25): counted, and an open segment abandoned; a bad SELECT leaves the intake UNSELECTED. -/
def takeBadFrame (kind : Byte) (s : State) : State :=
  let s := s.count fun c => { c with checkErrors := satAdd c.checkErrors 1 }
  (if kind = kindSelect then (s.abandon .check .unselected).setIntake .unselected
    else s.abandon .check .skipping).finishFrame

/-- CHECK_ERROR_FRAME (R25). -/
def execCheckErrorFrame (s : State) : Host.Outcome State Fault Refusal :=
  match s.badFrame with
  | some kind => s.event (takeBadFrame kind)
  | none => .next s

/-- A loss mark stands where the intake takes its next frame. -/
def State.lossDue (s : State) : Bool :=
  match s.feed.buffer with
  | .loss :: _ => !s.feed.intake.writing
  | _ => false

/-- A loss mark taken: an open segment is abandoned with reason OVERRUN, and the intake enters UNSELECTED (R23). -/
def takeLoss (s : State) : State := ((s.abandon .overrun .unselected).setIntake .unselected).finishFrame

/-- LOSS_MARK (R23). -/
def execLossMark (s : State) : Host.Outcome State Fault Refusal := s.eventWhen s.lossDue takeLoss

/-! ### FEED CLEAR (R39) -/

/-- FEED CLEAR carried out (R39). -/
def feedClear (m : Message) (s : State) : State :=
  if m.body = [] then (s.count fun _ => .zero).answer .ok s.feed.counters.bytes else s.answer .badArg []

/-- FEED_CLEAR (R39). -/
def execFeedClear (s : State) : Host.Outcome State Fault Refusal := s.carryOut kindFeedClear feedClear

end Sys2Proof.Machine
end

