-- ==== Sys2Proof/Machine/LineCode.lean ====
section
/-! DEFINITION. Painting a line into a band buffer (R69 to R71), and the line decoder: the LINE code read byte by byte
(R61 to R68, R196), code errors and the settling of the buffer (R72, R73), the content check (R75). -/

namespace Sys2Proof.Machine

/-! ### Line transfers (R69, R70, R165) -/

/-- The masked byte that paints up to eight pixels; a pixel not painted keeps its value (R70). -/
def paintByte (mode : PaintMode) (pixels : List (Option Bool)) : MaskedByte :=
  let value := packByte (pixels.map fun p => p == some true)
  match mode with
  | .replace => ⟨~~~packByte (pixels.map Option.isSome), value⟩
  | .overprint => ⟨0xFF, value⟩

/-- The bytes that a line's painted pixels touch, from pixel `x0` of a plate line of `width` pixels on; pixels at or past
the width are clipped (R71). -/
def paintCells (mode : PaintMode) (width x0 : Nat) (line : List Bool) : List MaskedByte :=
  let visible := line.take (width - x0)
  if visible.isEmpty then []
  else
    let padded := List.replicate (x0 % 8) none ++ visible.map some
    (piecesOfEight padded.length padded).map (paintByte mode)

/-- No transfer. -/
def Transfer.none : Transfer := ⟨0, []⟩

/-- Rectangle line `y` as a transfer into the band buffer (R69); a line past the band's height is clipped whole (R71). -/
def Work.lineTransfer (k : Work) (mode : PaintMode) (y : Nat) (line : List Bool) : Transfer :=
  let h := k.entry.header
  if h.y0 + y < k.bandHeight then
    ⟨k.buffer * mib + bufferLine * (h.y0 + y) + h.x0 / 8, paintCells mode k.width h.x0 line⟩
  else .none

/-- Buffer line `line` written white in full (R62, R89). -/
def Work.fillTransfer (k : Work) (line : Nat) : Transfer :=
  ⟨k.buffer * mib + bufferLine * line, List.replicate bufferLine (.plain 0)⟩

/-- The transfer after a burst has written `n` of its bytes. -/
def Transfer.advance (t : Transfer) (n : Nat) : Transfer := ⟨t.addr + n, t.cells.drop n⟩

/-! ### Reading the ring (R165) -/

/-- The plate memory address `n` bytes after a ring offset, wrapping at the ring's end (R44, R164). -/
def ringAddr (offset n : Nat) : Nat := ringBase + (offset + n) % ringSize

/-- The bytes of the next burst of a ring transfer that began at ring offset `start`, of which `done` bytes are done and
`left` remain: up to the next multiple of 256 bytes from the transfer's start, or to what remains, cut short at the ring's end
(R165, log 16). -/
def ringBurst (start done left : Nat) : Nat :=
  min (256 - done % 256) (min left (ringSize - (start + done) % ringSize))

/-! ### Commands (R63 to R67, R196) -/

/-- A code error met at the line count: the decoder leaves the command and reads no further, and the rest of the rectangle is
settled by the paint mode (R72, R73). -/
def Decode.fail (d : Decode) : Decode :=
  { d with
    error := some d.lineCount, ahead := [], repeatLeft := 0, reader := .opening,
    phase := match d.work.entry.header.mode with | .replace => .whiten d.lineCount | .overprint => .ended }

/-- Bytes remain after the last line: an error met at line h - 1 that leaves the buffer as it is (R68, R73). -/
def Decode.trailing (d : Decode) : Decode :=
  { d with error := some (d.work.entry.header.h - 1), ahead := [], phase := .ended }

/-- A line produced: it becomes the reference line, enters the content check and is written into the buffer (R63, R69,
R75). -/
def Decode.produce (d : Decode) (line : List Bool) : Decode :=
  { d with
    reference := line, lineCount := d.lineCount + 1, reader := .opening,
    check := if d.work.entry.header.check.isSome then d.check.map fun c => crc32Feed c (packLine line) else d.check,
    transfer := d.work.lineTransfer d.work.entry.header.mode d.lineCount line }

/-- WHITE k and SAME k: k lines equal to `line`, unless they would pass h lines (R64, R65). -/
def Decode.repeatLine (d : Decode) (k : Nat) (line : List Bool) : Decode :=
  if d.work.entry.header.h < d.lineCount + k then d.fail else { d with reference := line, repeatLeft := k }

/-- An opening byte (R196). -/
def Decode.openCommand (d : Decode) (b : Nat) : Decode :=
  if b < 0x40 then d.repeatLine (b + 1) (List.replicate d.work.entry.header.w false)
  else if b < 0x80 then d.repeatLine (b - 0x40 + 1) d.reference
  else if b = 0x80 then { d with reader := .number .runCount 0 0 }
  else if b = 0x81 then { d with reader := .number .spanCount 0 0 }
  else d.fail

/-- A line with the pixels from `start` to `start + n - 1` inverted (R67). -/
def invertSpan (start n : Nat) (line : List Bool) : List Bool :=
  line.take start ++ ((line.drop start).take n).map not ++ line.drop (start + n)

/-- The decoder goes on to read a number of the command. -/
def Decode.await (d : Decode) (what : NumberOf) : Decode := { d with reader := .number what 0 0 }

/-- A run length read (R66). -/
def Decode.takeRun (d : Decode) (left : Nat) (black isFirst : Bool) (line : List Bool) (v : Nat) : Decode :=
  if v = 0 ∧ isFirst = false then d.fail
  else if d.work.entry.header.w < line.length + v then d.fail
  else
    let line := line ++ List.replicate v black
    if 1 < left then d.await (.runLength (left - 1) (!black) false line)
    else if line.length = d.work.entry.header.w then d.produce line
    else d.fail

/-- A span length read: the span begins at `start` (R67). -/
def Decode.takeSpan (d : Decode) (left start : Nat) (line : List Bool) (v : Nat) : Decode :=
  if v = 0 then d.fail
  else if d.work.entry.header.w < start + v then d.fail
  else if 1 < left then d.await (.spanSkip (left - 1) (start + v) (invertSpan start v line))
  else d.produce (invertSpan start v line)

/-- A number of the command read, with its value (R66, R67). -/
def Decode.takeNumber (d : Decode) (what : NumberOf) (v : Nat) : Decode :=
  match what with
  | .runCount => if v = 0 ∨ 32768 < v then d.fail else d.await (.runLength v false true [])
  | .runLength left black isFirst line => d.takeRun left black isFirst line v
  | .spanCount =>
    if 16384 < v then d.fail else if v = 0 then d.produce d.reference else d.await (.spanSkip v 0 d.reference)
  | .spanSkip left pos line => d.await (.spanLength left (pos + v) line)
  | .spanLength left start line => d.takeSpan left start line v

/-- A payload byte taken: an opening byte, or a byte of a number, of which a third with its continuation indication set is
malformed (R63, R196). -/
def Decode.eat (d : Decode) (b : Byte) : Decode :=
  match d.reader with
  | .opening => d.openCommand b.toNat
  | .number what value bytes =>
    let v := value * 128 + b.toNat % 128
    if b.toNat < 128 then d.takeNumber what v
    else if bytes = 2 then d.fail
    else { d with reader := .number what v (bytes + 1) }

/-! ### The decode's progress -/

/-- One move within the code: its end (R68), the next line of a WHITE or SAME, or the next payload byte; none where a byte
is needed that has not been read from the ring. -/
def Decode.codeStep (d : Decode) : Option Decode :=
  let h := d.work.entry.header
  if h.h ≤ d.lineCount then some (if d.readPos = h.declared then { d with phase := .ended } else d.trailing)
  else if 0 < d.repeatLeft then some { d.produce d.reference with repeatLeft := d.repeatLeft - 1 }
  else
    match d.ahead with
    | b :: rest => some ({ d with ahead := rest, readPos := d.readPos + 1 }.eat b)
    | [] => if d.readPos < h.declared then none else some d.fail

/-- One move of the decode; none where it waits for plate memory or has ended. -/
def Decode.move (d : Decode) : Option Decode :=
  if d.transfer.cells.isEmpty then
    match d.phase with
    | .ended => none
    | .fill line =>
      some (if line < 256 then { d with phase := .fill (line + 1), transfer := d.work.fillTransfer line }
        else { d with phase := .code })
    | .whiten y =>
      some (if y < d.work.entry.header.h then
          { d with
            phase := .whiten (y + 1)
            transfer := d.work.lineTransfer .replace y (List.replicate d.work.entry.header.w false) }
        else { d with phase := .ended })
    | .code => d.codeStep
  else none

/-- At most `n` moves. -/
def Decode.moves : Nat → Decode → Decode
  | 0, d => d
  | n + 1, d => match d.move with | none => d | some d' => Decode.moves n d'

/-- The decode carried on until it needs plate memory or has ended. Each move takes a byte read ahead, produces or whitens a
line, or changes the phase, so the moves granted are enough. -/
def Decode.advance (d : Decode) : Decode := Decode.moves (d.ahead.length + 2 * d.work.entry.header.h + 8) d

/-- A decode as it begins (R62). -/
def Decode.start (k : Work) : Decode :=
  Decode.advance
    { work := k
      phase := if k.entry.header.seq = 0 then .fill 0 else .code
      readPos := 0
      ahead := []
      lineCount := 0
      reference := List.replicate k.entry.header.w false
      check := some crc32Init
      error := none
      reader := .opening
      repeatLeft := 0
      transfer := .none }

/-- The burst the decoder asks for (R165): the next 256 bytes of the line it writes, or of its payload. -/
def Decode.burst (d : Decode) : Option Burst :=
  if d.transfer.cells.isEmpty then
    match d.phase with
    | .code =>
      let n := d.readPos + d.ahead.length
      let h := d.work.entry.header
      if n < h.declared then
        some ⟨.decoder, ringAddr d.work.entry.ringOffset n, .read (ringBurst d.work.entry.ringOffset n (h.declared - n)),
          false⟩
      else none
    | .fill _ | .whiten _ | .ended => none
  else some ⟨.decoder, d.transfer.addr, .write (d.transfer.cells.take 256), false⟩

/-- The decode after its burst: bytes read, or bytes of its transfer written. -/
def Decode.burstDone (d : Decode) (op : BurstOp) (bytes : List Byte) : Decode :=
  match op with
  | .read _ => { d with ahead := d.ahead ++ bytes }.advance
  | .write cells => { d with transfer := d.transfer.advance cells.length }.advance

/-- The decode has ended and its lines are written (R77). -/
def Decode.over (d : Decode) : Bool := decide (d.phase = .ended) && d.transfer.cells.isEmpty

/-- The content check is given, no code error was met, and the check formed differs from it (R76). -/
def Decode.mismatch (d : Decode) : Bool :=
  match d.work.entry.header.check, d.check, d.error with
  | some given, some formed, none => decide (crc32Final formed ≠ given)
  | _, _, _ => false

end Sys2Proof.Machine
end

