-- ==== Sys2Proof/Machine/Screening.lean ====
section
/-! DEFINITION. The screener: the computation of R90 to R94 and a screen's progress (R88, R89, R96), and the requests that
load a screen set (R83 to R87). -/

namespace Sys2Proof.Machine

/-! ### The computation (R90 to R94) -/

/-- The source sample of rectangle pixel `x` of `w` in a row of `sw` samples; the same for rows (R90). -/
def sourceIndex (x w sw : Nat) : Nat := (2 * x + 1) * sw / (2 * w)

/-- The corrected tone of a tone through a transfer curve (R91). -/
def correctTone (curve : List Nat) (v : Nat) : Int :=
  let s := v / 16
  let f := v % 16
  let c (i : Nat) : Int := (curve.getD i 0 : Nat)
  c s + ((c (s + 1) - c s) * f + 8) / 16

/-- A cell coordinate: floor of the sum over 65536, reduced modulo T (R93). -/
def cellCoord (x y : Nat) (a b : Int) (cell : Nat) : Nat := (((x * a + y * b) / 65536) % (cell : Int)).toNat

/-- The threshold entry of plate pixel (X, Y): cell row times T plus cell column (R79, R93, R94). -/
def ScreenParams.entry (p : ScreenParams) (x y : Nat) : Nat :=
  cellCoord x y p.vx p.vy p.cell * p.cell + cellCoord x y p.ux p.uy p.cell

/-- Ink where the corrected tone is at least the threshold (R94). -/
def screenInk (curve : List Nat) (tone threshold : Nat) : Bool := decide ((threshold : Int) ≤ correctTone curve tone)

/-! ### A screen's progress (R88, R89) -/

/-- The source row of rectangle line `y`. -/
def Screen.sourceRow (d : Screen) : Nat := sourceIndex d.lineCount d.work.entry.header.h d.work.entry.header.sh

/-- The start of a line: the screen's end after the last (R97), the pixels where the row in use is the line's, otherwise the
row's reading (R89). -/
def Screen.startLine (d : Screen) : Screen :=
  if d.work.entry.header.h ≤ d.lineCount then { d with phase := .ended }
  else if d.row.map Prod.fst = some d.sourceRow then { d with phase := .pixels [] }
  else { d with phase := .readRow d.sourceRow [] }

/-- A line computed: it is painted (R96), and the next begins. -/
def Screen.finishLine (d : Screen) (line : List Bool) : Screen :=
  { d with
    lineCount := d.lineCount + 1
    transfer := d.work.lineTransfer d.work.entry.header.mode d.lineCount line }.startLine

/-- One move of the screen; none where it waits for plate memory or has ended. -/
def Screen.move (d : Screen) : Option Screen :=
  if d.transfer.cells.isEmpty then
    match d.phase with
    | .ended => none
    | .fill line =>
      some (if line < 256 then { d with phase := .fill (line + 1), transfer := d.work.fillTransfer line } else d.startLine)
    | .readRow row got =>
      if d.work.entry.header.sw ≤ got.length then some { d with row := some (row, got), phase := .pixels [] } else none
    | .pixels laid => if d.work.entry.header.w ≤ laid.length then some (d.finishLine laid) else none
  else none

/-- The screen carried on until it needs plate memory or has ended: at most a fill's end or a row's end, a line's end and
the next line's start. -/
def Screen.advance (d : Screen) : Screen :=
  match d.move with
  | none => d
  | some d1 =>
    match d1.move with
    | none => d1
    | some d2 => match d2.move with | none => d2 | some d3 => d3

/-- A screen as it begins (R88, R89). -/
def Screen.start (k : Work) : Screen :=
  let d : Screen := ⟨k, .fill 0, 0, none, .none⟩
  if k.entry.header.seq = 0 then d.advance else d.startLine

/-- The rectangle pixel to be computed next, as plate coordinates (R92). -/
def Screen.plateX (d : Screen) (laid : List Bool) : Nat := d.work.entry.header.x0 + laid.length
def Screen.plateY (d : Screen) : Nat := 256 * d.work.entry.header.band + d.work.entry.header.y0 + d.lineCount

/-- The burst the screener asks for (R165): the next 256 bytes of the line it writes, or of a source row, or one threshold
entry of its set. -/
def Screen.burst (d : Screen) (set : Option ScreenParams) : Option Burst :=
  if d.transfer.cells.isEmpty then
    match d.phase with
    | .readRow row got =>
      let h := d.work.entry.header
      let start := d.work.entry.ringOffset + row * h.sw
      some ⟨.screener, ringAddr start got.length, .read (ringBurst start got.length (h.sw - got.length)), false⟩
    | .pixels laid =>
      set.map fun p =>
        ⟨.screener, tileBase + tileArea * d.work.entry.header.screen + 2 * p.entry (d.plateX laid) d.plateY, .read 2, false⟩
    | .fill _ | .ended => none
  else some ⟨.screener, d.transfer.addr, .write (d.transfer.cells.take 256), false⟩

/-- The tone of the pixel to be computed next (R90). -/
def Screen.tone (d : Screen) (laid : List Bool) : Nat :=
  let h := d.work.entry.header
  (((d.row.map Prod.snd).getD []).getD (sourceIndex laid.length h.w h.sw) 0).toNat

/-- The screen after its burst. -/
def Screen.burstDone (d : Screen) (set : Option ScreenParams) (op : BurstOp) (bytes : List Byte) : Screen :=
  match op, d.phase with
  | .write cells, _ => { d with transfer := d.transfer.advance cells.length }.advance
  | .read _, .readRow row got => { d with phase := .readRow row (got ++ bytes) }.advance
  | .read _, .pixels laid =>
    { d with
      phase := .pixels (laid ++ [screenInk ((set.map ScreenParams.curve).getD []) (d.tone laid) (decBE bytes)]) }.advance
  | .read _, .fill _ | .read _, .ended => d

/-- The screen has ended and its lines are written (R97). -/
def Screen.over (d : Screen) : Bool := decide (d.phase = .ended) && d.transfer.cells.isEmpty

/-! ### SCREEN BEGIN (R83) -/

/-- The screen set with a number. -/
def State.set? (s : State) (n : Nat) : Option ScreenSet := s.screens[n]?

/-- The state of one set changed. -/
def State.setScreen (s : State) (n : Nat) (st : ScreenState) : State :=
  s.withScreens (s.screens.modify n fun x => { x with state := st })

/-- A coefficient is in range (R79). -/
def coefficientOk (a : Int) : Bool := decide (-1048576 ≤ a) && decide (a ≤ 1048575)

/-- The values of a SCREEN BEGIN are in range (R83). -/
def ScreenParams.inRange (p : ScreenParams) : Bool :=
  [16, 32, 64, 128].contains p.cell && coefficientOk p.ux && coefficientOk p.uy && coefficientOk p.vx && coefficientOk p.vy
    && p.curve.all fun c => decide (c ≤ 4095)

/-- SCREEN BEGIN carried out (R83). -/
def screenBegin (m : Message) (s : State) : State :=
  match screenBeginBody m.body with
  | none => s.answer .badArg []
  | some (n, p) =>
    match s.set? n with
    | none => s.answer .badArg []
    | some x =>
      if 0 < x.useCount then s.answer .busy []
      else if p.inRange then (s.setScreen n (.loading p)).answer .ok []
      else s.answer .badArg []

/-- SCREEN_BEGIN (R83). -/
def execScreenBegin (s : State) : Host.Outcome State Fault Refusal := s.carryOut kindScreenBegin screenBegin

/-! ### SCREEN TABLE (R85, R86) -/

/-- The values of a SCREEN TABLE's run. -/
def runValues (body : List Byte) : List Nat := (List.range (field body 3 2)).map fun i => field body (5 + 2 * i) 2

/-- The form of a SCREEN TABLE body: set at most 7, run length 1 to 1024, and the length the run length implies (R85). -/
def screenTableForm (body : List Byte) : Bool :=
  let n := field body 3 2
  decide (5 ≤ body.length) && decide (field body 0 1 ≤ 7) && decide (1 ≤ n) && decide (n ≤ 1024)
    && decide (body.length = 5 + 2 * n)

/-- SCREEN TABLE begun (R85, R86): refused, or its run is handed to the arbiter; the reply is made when the last write has
been carried out, and the request keeps its place till then (R174, R175). -/
def screenTable (m : Message) (s : State) : State :=
  let n := field m.body 0 1
  let first := field m.body 1 2
  if screenTableForm m.body then
    match (s.set? n).map ScreenSet.state with
    | some (.loading p) =>
      if first ≠ p.fill then s.answer .badSeq (encBE 2 p.fill)
      else if p.cell * p.cell < first + field m.body 3 2 then s.answer .badArg []
      else if (runValues m.body).any fun v => decide (v = 0) || decide (4095 < v) then s.answer .badArg []
      else s.withLink { s.link with job := some ⟨n, first, m.body.drop 5, 0⟩ }
    | some .free | some (.ready _) | none => s.answer .state []
  else s.answer .badArg []

/-- SCREEN_TABLE (R86). -/
def execScreenTable (s : State) : Host.Outcome State Fault Refusal := s.carryOut kindScreenTable screenTable

/-- The burst that a SCREEN TABLE being carried out asks for (R165). -/
def TableJob.burst (j : TableJob) : Option Burst :=
  if j.written < j.bytes.length then
    some ⟨.screenTable, tileBase + tileArea * j.set + 2 * j.first + j.written,
      .write (((j.bytes.drop j.written).take 256).map .plain), false⟩
  else none

/-- The set's fill position after a run (R86). -/
def ScreenState.filled (st : ScreenState) (fill : Nat) : ScreenState :=
  match st with
  | .loading p => .loading { p with fill := fill }
  | .free => .free
  | .ready p => .ready p

/-- A burst of a SCREEN TABLE carried out: after the last, the fill position advances and the OK reply is made (R86). -/
def State.tableBurstDone (s : State) (n : Nat) : State :=
  match s.link.job with
  | some j =>
    let j' := { j with written := j.written + n }
    if j'.written < j.bytes.length then s.withLink { s.link with job := some j' }
    else
      let fill := j.first + j.bytes.length / 2
      (s.withScreens (s.screens.modify j.set fun x => { x with state := x.state.filled fill })).answer .ok (encBE 2 fill)
  | none => s

/-! ### SCREEN END (R87) -/

/-- SCREEN END carried out (R87). That the set number and the body's length are tested first is the model's choice (log 39). -/
def screenEnd (m : Message) (s : State) : State :=
  let n := field m.body 0 1
  if m.body.length = 1 ∧ n ≤ 7 then
    match (s.set? n).map ScreenSet.state with
    | some (.loading p) =>
      if p.fill = p.cell * p.cell then (s.setScreen n (.ready p)).answer .ok []
      else s.answer .incomplete (encBE 2 p.fill ++ encBE 2 (p.cell * p.cell))
    | some .free | some (.ready _) | none => s.answer .state []
  else s.answer .badArg []

/-- SCREEN_END (R87). -/
def execScreenEnd (s : State) : Host.Outcome State Fault Refusal := s.carryOut kindScreenEnd screenEnd

end Sys2Proof.Machine
end

