-- ==== Sys2Proof/Machine/Render.lean ====
section
/-! DEFINITION. The render picker, the records a render makes, and the end of a render (R51 to R54, R74, R76, R77, R97). -/

namespace Sys2Proof.Machine

/-! ### The picker (R51 to R53) -/

/-- `f` applied to the first element that satisfies `which`. -/
def changeFirst {α : Type} (which : α → Bool) (f : α → α) : List α → List α
  | [] => []
  | a :: rest => if which a then f a :: rest else a :: changeFirst which f rest

/-- An entry that the renderer of a kind may take: QUEUED, of that kind, and eligible (R51, R52). -/
def State.offered (s : State) (kind : SegKind) (e : Entry) : Bool := decide (e.header.kind = kind) && s.eligible e

/-- A renderer has no render in progress. -/
def State.rendererFree (s : State) : SegKind → Bool
  | .line => s.decoder.isNone
  | .tone => s.screener.isNone

/-- The buffer a render writes into and the free list it leaves: the band's own, or the head of the free list (R53). -/
def State.bufferFor (s : State) (b : Band) : Option (Nat × List Nat) :=
  match b.buffer, s.pool.free with
  | some n, free => some (n, free)
  | none, n :: rest => some (n, rest)
  | none, [] => none

/-- A renderer begins the work it was given. -/
def State.beginWork (s : State) (k : Work) : State :=
  match k.entry.header.kind with
  | .line => s.withDecoder (some (Decode.start k))
  | .tone => s.withScreener (some (Screen.start k))

/-- An entry given to its renderer with the buffer `n` (R53). -/
def State.giveEntry (s : State) (p : Plate) (e : Entry) (n : Nat) (free : List Nat) : State :=
  let s := s.withSegs
    { s.segs with queue := changeFirst (s.offered e.header.kind) (fun x => { x with state := .rendering }) s.segs.queue }
  let s := s.withPool ⟨free⟩
  let s := s.modBand p.id e.header.band fun b => { b with rendering := true, buffer := some n }
  s.beginWork ⟨{ e with state := .rendering }, n, p.width, p.bandHeight e.header.band⟩

/-- The oldest entry offered to a renderer, given to it. -/
def State.startRender (s : State) (e : Entry) : State :=
  match s.plate? e.header.plate with
  | some p =>
    match (p.bands[e.header.band]?).bind s.bufferFor with
    | some (n, free) => s.giveEntry p e n free
    | none => s
  | none => s

/-- RENDER_START (R53): taken where the renderer is free and an entry is offered to it. -/
def execRenderStart (kind : SegKind) (s : State) : Host.Outcome State Fault Refusal :=
  match s.segs.queue.find? (s.offered kind) with
  | some e => s.eventWhen (s.rendererFree kind) fun s => s.startRender e
  | none => .next s

/-! ### The records a render makes (R74, R76) -/

/-- The plate and band that the render of an entry advances, as they stand: the plate LOADING or ACTIVE, the band EMPTY or
FILLING, the entry's link whole (R6, R74). -/
def State.target? (s : State) (e : Entry) : Option (Plate × Band) :=
  if e.linked then
    (s.plate? e.header.plate).bind fun p =>
      (p.bands[e.header.band]?).bind fun b =>
        if p.live && (decide (b.state = .empty) || decide (b.state = .filling)) then some (p, b) else none
  else none

/-- A record of render damage: it sets the band's render damage and makes no mark request (R74, R76, R154). -/
def State.renderDamage (s : State) (p : Plate) (h : Header) (c : Cause) (first last : Nat) : State :=
  (s.modBand p.id h.band fun b => { b with damaged := true }).addRecord p.id
    { DamageRecord.basic c (p.completed + 1) h.band first last with seq := some h.seq }

/-- The CODE record of an error met at rectangle line `e` (R74). -/
def State.codeRecord (s : State) (k : Work) (e : Nat) : State :=
  let h := k.entry.header
  match s.target? k.entry with
  | some (p, _) =>
    let last := p.lastLine h.band
    s.renderDamage p h .code (min (256 * h.band + h.y0 + e) last) (min (256 * h.band + h.y0 + h.h - 1) last)
  | none => s

/-- The CONTENT record of a content check mismatch (R76). -/
def State.contentRecord (s : State) (k : Work) : State :=
  let h := k.entry.header
  match s.target? k.entry with
  | some (p, _) =>
    s.renderDamage p h .content (256 * h.band + h.y0)
      (256 * h.band + min (h.y0 + h.h - 1) (p.bandHeight h.band - 1))
  | none => s

/-- The decode after its burst `d'`: an error met for the first time makes its CODE record at that moment. -/
def State.stepDecoder (s : State) (d d' : Decode) : State :=
  let s := s.withDecoder (some d')
  match d.error, d'.error with
  | none, some e => s.codeRecord d'.work e
  | none, none | some _, _ => s

/-! ### The end of a render (R54) -/

/-- A band after the end of a render that advanced it (R6). -/
def Band.advanced (b : Band) : Band :=
  { b with
    nextSeq := b.nextSeq + 1, rendering := false,
    state := if b.nextSeq + 1 = b.expected then .ready else .filling }

/-- BAND READY, and PLATE READY where the plate is now complete (R9, R10). -/
def State.tellReady (s : State) (id band : Nat) : State :=
  let s := s.post (.bandReady id band)
  if ((s.plate? id).map Plate.complete).getD false then s.post (.plateReady id) else s

/-- The end of a render advances its band (R6, R54). -/
def State.advanceBand (s : State) (p : Plate) (b : Band) (h : Header) : State :=
  let s := s.modBand p.id h.band Band.advanced
  if b.advanced.state = .ready then s.tellReady p.id h.band else s

/-- The end of a render discards its result: the buffer returns to the pool, and the band record, if there still is one,
holds none (R6, R17). -/
def State.discardResult (s : State) (k : Work) : State :=
  (if k.entry.linked then
    s.modBand k.entry.header.plate k.entry.header.band fun b => { b with rendering := false, buffer := none }
  else s).returnBuffers [k.buffer]

/-- The renderer of a kind is free. -/
def State.freeRenderer (s : State) : SegKind → State
  | .line => s.withDecoder none
  | .tone => s.withScreener none

/-- The clipped-segment count of a plate rises by 1 (R71, R96). -/
def State.countClipped (s : State) (id : Nat) : State := s.modPlate id fun p => { p with clipped := satAdd p.clipped 1 }

/-- The end of a render by the renderer of a kind, up to its ring release (R54). -/
def State.endRenderCore (s : State) (kind : SegKind) (k : Work) : State :=
  let h := k.entry.header
  let s := (s.freeRenderer kind).withSegs
    { s.segs with queue := moveEntries (fun e => decide (e.header.kind = kind)) .rendering .rendered s.segs.queue }
  let s := match s.target? k.entry with
    | some (p, b) => s.advanceBand p b h
    | none => s.discardResult k
  (s.withScreens (returnUse h s.screens)).releaseRing

/-- The end of a render (R54), the clipped count (R77, R97), and the lead it may settle (R109). -/
def State.endRender (s : State) (kind : SegKind) (k : Work) : State :=
  let s' := s.endRenderCore kind k
  (match s.target? k.entry with
    | some (p, _) => if k.clipped then s'.countClipped p.id else s'
    | none => s').settleLead

/-- A decode ends (R77). -/
def endDecode (d : Decode) (s : State) : State := (if d.mismatch then s.contentRecord d.work else s).endRender .line d.work

/-- LINE_DECODE_END (R77): taken where the decode has ended. -/
def execLineDecodeEnd (s : State) : Host.Outcome State Fault Refusal :=
  match s.decoder with
  | some d => s.eventWhen d.over (endDecode d)
  | none => .next s

/-- SCREEN_RENDER_END (R97): taken where the screen has ended. -/
def execScreenRenderEnd (s : State) : Host.Outcome State Fault Refusal :=
  match s.screener with
  | some d => s.eventWhen d.over fun s => s.endRender .tone d.work
  | none => .next s

end Sys2Proof.Machine
end

