-- ==== Sys2Proof/Machine/Arbiter.lean ====
section
/-! DEFINITION. The plate memory arbiter: the waiting bursts (R165), the grant (R166 to R169), and a burst's end (R166). -/

namespace Sys2Proof.Machine

/-! ### Waiting bursts (R165) -/

/-- The burst the intake writer asks for: the next bytes of the payload it writes, from the ring offset plus the received
length. -/
def OpenSegment.burst (seg : OpenSegment) : Option Burst :=
  match seg.writing with
  | some (payload, written) =>
    if written < payload.length then
      let start := seg.ringOffset + seg.received
      some ⟨.intake, ringAddr start written,
        .write (((payload.drop written).take (ringBurst start written (payload.length - written))).map .plain), false⟩
    else none
  | none => none

/-- The burst the intake asks for. -/
def Intake.burst : Intake → Option Burst
  | .assembling seg => seg.burst
  | .unselected | .selected | .skipping => none

/-- The waiting burst of each requester. -/
def State.waiting (s : State) : Requester → Option Burst
  | .fetch => s.engine.read.map FetchRead.burst
  | .intake => s.feed.intake.burst
  | .decoder => s.decoder.bind Decode.burst
  | .screener => s.screener.bind fun d => d.burst (s.readySet d.work.entry.header.screen)
  | .screenTable => s.link.job.bind TableJob.burst

/-! ### The grant (R166 to R169) -/

/-- The renderers in the order of R168: the one not served last first, the line decoder first where none was. -/
def renderOrder (last : Option SegKind) : List Requester :=
  match last with
  | some .line => [.screener, .decoder]
  | some .tone | none => [.decoder, .screener]

/-- The grant order (R167). -/
def grantOrder (urgent : Bool) (last : Option SegKind) : List Requester :=
  (if urgent then [.fetch, .intake] else [.intake, .fetch]) ++ renderOrder last ++ [.screenTable]

/-- The burst to be granted now: that of the first requester in the order that has one waiting (R167). -/
def State.nextBurst (s : State) : Option Burst :=
  (grantOrder s.engine.urgent s.arbiter.lastServed).findSome? s.waiting

/-- The last-served renderer after a grant to a requester (R168). -/
def servedAfter (who : Requester) (last : Option SegKind) : Option SegKind :=
  match who with
  | .decoder => some .line
  | .screener => some .tone
  | .fetch | .intake | .screenTable => last

/-- A burst granted: the arbiter is BUSY with it (R166). -/
def State.grant (s : State) (b : Burst) : State := s.withArbiter ⟨some b, servedAfter b.who s.arbiter.lastServed⟩

/-- BURST_GRANT (R167): taken where the arbiter is FREE and a burst waits. -/
def execBurstGrant (s : State) : Host.Outcome State Fault Refusal :=
  match s.nextBurst with
  | some b => s.eventWhen s.arbiter.burst.isNone fun s => s.grant b
  | none => .next s

/-! ### A burst's end (R165, R166) -/

/-- The bytes a burst moves. -/
def BurstOp.length : BurstOp → Nat
  | .read n => n
  | .write cells => cells.length

/-- A burst lies inside plate memory (R164). -/
def Burst.inside (b : Burst) : Bool := decide (b.addr + b.op.length ≤ plateMemorySize)

/-- Plate memory after a burst. -/
def Memory.after (m : Memory) (b : Burst) : Memory :=
  match b.op with
  | .read _ => m
  | .write cells => m.writeRun b.addr cells

/-- The bytes a burst reads. -/
def Memory.got (m : Memory) (b : Burst) : List Byte :=
  match b.op with
  | .read n => m.readRun b.addr n
  | .write _ => []

/-- The DATA frame is written whole: its payload counts in the received length and the payload check, and the frame is
finished (R31, R165, log 15). -/
def State.endPayload (s : State) (seg : OpenSegment) (payload : List Byte) : State :=
  (s.setIntake (.assembling
    { seg with
      received := seg.received + payload.length, check := crc32Feed seg.check payload, writing := none })).finishFrame

/-- The intake writer after a burst of `n` bytes. -/
def State.intakeBurstDone (s : State) (n : Nat) : State :=
  match s.feed.intake with
  | .assembling seg =>
    match seg.writing with
    | some (payload, written) =>
      if written + n < payload.length then s.setIntake (.assembling { seg with writing := some (payload, written + n) })
      else s.endPayload seg payload
    | none => s
  | .unselected | .selected | .skipping => s

/-- The requester of a burst goes on with what the burst brought or wrote. -/
def State.serve (s : State) (b : Burst) (bytes : List Byte) : State :=
  match b.who with
  | .fetch => s.fetchBurstDone bytes
  | .intake => if b.stale then s else s.intakeBurstDone b.op.length
  | .decoder =>
    match s.decoder with
    | some d => s.stepDecoder d (d.burstDone b.op bytes)
    | none => s
  | .screener =>
    match s.screener with
    | some d => s.withScreener (some (d.burstDone (s.readySet d.work.entry.header.screen) b.op bytes))
    | none => s
  | .screenTable => s.tableBurstDone b.op.length

/-- A burst carried out: plate memory read or written, the arbiter FREE, its requester served (R166). -/
def State.finishBurst (s : State) (b : Burst) : State :=
  ((s.withMemory (s.memory.after b)).withArbiter { s.arbiter with burst := none }).serve b (s.memory.got b)

/-- BURST_DONE (R166). It stops where the burst does not lie inside plate memory (R164, log 31). -/
def execBurstDone (s : State) : Host.Outcome State Fault Refusal :=
  match s.arbiter.burst with
  | some b =>
    if b.inside then s.event fun s => s.finishBurst b
    else if s.pins.resetAsserted then .next s
    else .fault .outsidePlateMemory
  | none => .next s

end Sys2Proof.Machine
end

