-- ==== Sys2Proof/Machine/LinkLine.lean ====
section
/-! DEFINITION. The control link: the receiver (R171, R172), the request buffer (R173, R174), the transmitter (R177, R179),
and STATUS (R181). -/

namespace Sys2Proof.Machine

/-! ### The receiver (R171, R172, R174) -/

/-- The receiver is inside a message. -/
def Link.receiving (l : Link) : Bool := decide (l.receiver = .receiving)

/-- SYNC_BYTE_RECEIVED (R171): taken in HUNT; inside a message a sync byte is data. -/
def execSyncByteReceived (s : State) : Host.Outcome State Fault Refusal :=
  s.eventWhen (!s.link.receiving) fun s => s.withLink { s.link with receiver := .receiving }

/-- A good request joins the buffer, or is answered OVERFLOW where the buffer holds 4 (R174). -/
def Link.join (l : Link) (m : Message) : Link :=
  if l.requests.length < 4 then { l with requests := l.requests ++ [m] } else l.tell ⟨some m.tag, .overflow, []⟩

/-- A message judged: good, or a link error (R172). -/
def Link.judge (l : Link) (m : Message) (good : Bool) : Link :=
  if good then { l with receiver := .hunt }.join m else l.error

/-- MESSAGE_RECEIVED (R172): taken inside a message; a body above 4096 bytes never comes to its CRC (R171). -/
def execMessageReceived (kind tag : Byte) (body : List Byte) (crc : Crc16) (s : State) :
    Host.Outcome State Fault Refusal :=
  s.eventWhen (s.link.receiving && decide (body.length ≤ 4096)) fun s =>
    s.withLink (s.link.judge ⟨kind, tag, body⟩ (messageGood kind tag body crc))

/-- MESSAGE_LENGTH_TOO_LONG (R171): taken inside a message, for a length above 4096. -/
def execMessageLengthTooLong (length : BitVec 16) (s : State) : Host.Outcome State Fault Refusal :=
  s.eventWhen (s.link.receiving && decide (4096 < length.toNat)) fun s => s.withLink s.link.error

/-- MESSAGE_GAP (R171): taken inside a message. -/
def execMessageGap (s : State) : Host.Outcome State Fault Refusal :=
  s.eventWhen s.link.receiving fun s => s.withLink s.link.error

/-! ### Unknown kinds (R173) -/

/-- UNKNOWN_REQUEST_KIND (R173): the head request may be carried out, and its kind names no request. -/
def execUnknownRequestKind (s : State) : Host.Outcome State Fault Refusal :=
  match s.due with
  | some m => if isRequestKind m.kind then .next s else .next (s.answer .badArg []).testStall
  | none => .next s

/-! ### The transmitter (R177, R179) -/

/-- The transmitter begins its next message. -/
def State.sendNext (s : State) : State := s.withLink s.link.beginSend

/-- A free transmitter finds a reply waiting. -/
def Link.replyDue (l : Link) : Bool := l.sending.isNone && !l.replies.isEmpty

/-- A free transmitter finds no reply but a notice waiting. -/
def Link.noticeDue (l : Link) : Bool := l.sending.isNone && l.replies.isEmpty && !l.notices.isEmpty

/-- TRANSMIT_REPLY (R177). -/
def execTransmitReply (s : State) : Host.Outcome State Fault Refusal := s.eventWhen s.link.replyDue State.sendNext

/-- TRANSMIT_NOTICE (R179). -/
def execTransmitNotice (s : State) : Host.Outcome State Fault Refusal := s.eventWhen s.link.noticeDue State.sendNext

/-- MESSAGE_SENT (R177): the transmitter is free, and begins the next waiting message if there is one. -/
def execMessageSent (s : State) : Host.Outcome State Fault Refusal := s.eventWhen s.link.sending.isSome State.sendNext

/-! ### STATUS (R181, R190) -/

/-- The plate taken, as STATUS sends it. -/
def Engine.takenBytes (e : Engine) : List Byte :=
  match e.taken with
  | none => [0] ++ encBE 5 0
  | some t => [1] ++ encBE 2 t.plate ++ encBE 1 t.copy ++ encBE 2 e.swath

/-- The header of the open segment. -/
def Intake.header? : Intake → Option Header
  | .assembling seg => some seg.header
  | .unselected | .selected | .skipping => none

/-- Bytes 0 to 15 of the STATUS result. -/
def State.statusEngine (s : State) : List Byte :=
  encBE 1 s.pins.address.toNat ++ encBE 1 s.pins.rate.toNat ++ encBE 1 s.engine.state.pos
    ++ encBE 1 s.engine.state.phaseCode ++ encBE 2 (s.table.queue.head?.getD 0) ++ s.engine.takenBytes
    ++ encBE 1 s.engine.fifo.length ++ encBool s.engine.urgent ++ encBool s.engine.waiting.isSome
    ++ encBE 1 s.pool.free.length

/-- Bytes 16 to 38 of the STATUS result. -/
def State.statusSegments (s : State) : List Byte :=
  encBE 2 s.segs.queue.length ++ encBE 4 s.freeRing ++ identityBytes (s.decoder.map fun d => d.work.entry.header)
    ++ identityBytes (s.screener.map fun d => d.work.entry.header) ++ encBE 1 s.feed.intake.pos
    ++ identityBytes s.feed.intake.header? ++ encBool s.feed.hold

/-- The 55 bytes of the STATUS result (R190). -/
def State.statusBytes (s : State) : List Byte :=
  s.statusEngine ++ s.statusSegments ++ s.feed.counters.bytes ++ encBE 1 s.monitor.activity.pos
    ++ encBE 1 s.monitor.step.pos ++ encBE 2 s.link.lost ++ encBE 2 s.link.errors

/-- STATUS carried out (R181). -/
def statusRequest (m : Message) (s : State) : State :=
  if m.body = [] then s.answer .ok s.statusBytes else s.answer .badArg []

/-- STATUS (R181). -/
def execStatus (s : State) : Host.Outcome State Fault Refusal := s.carryOut kindStatus statusRequest

end Sys2Proof.Machine
end

