-- ==== Sys2Proof/Machine/Plates.lean ====
section
/-! DEFINITION. The requests of 01_plates_and_bands.md: PLATE DEFINE, PLATE RELEASE, PLATE ABORT, BAND QUERY. -/

namespace Sys2Proof.Machine

/-! ### PLATE DEFINE (R13, R15, R16) -/

/-- The checks of R15 on a body whose length fits, in the order of its table. -/
def State.defineCheck (s : State) (q : PlateSpec) : Status :=
  if (s.plate? q.id).isSome then .exists
  else if 8 ≤ s.table.plates.length then .full
  else if q.id = 0 then .badArg
  else if q.width < 1024 ∨ 32768 < q.width ∨ q.width % 32 ≠ 0 then .badArg
  else if q.height < 256 ∨ 32768 < q.height then .badArg
  else if q.bands.length ≠ (q.height + 255) / 256 then .badArg
  else if q.copies = 0 ∨ 8 < q.copies then .badArg
  else if q.lead = 0 ∨ 16 < q.lead then .badArg
  else if 8 < q.stamps.length ∨ q.stamps.any (fun t => decide (31 < t.pattern)) then .badArg
  else .ok

/-- A band record as its plate is defined (R5). -/
def BandSpec.band (q : BandSpec) : Band where
  expected := q.expected
  nextSeq := 0
  state := if q.expected = 0 then .blank else .empty
  buffer := none
  rendering := false
  damaged := false
  expectedSig := q.signature
  lastSig := none

/-- A plate record at acceptance (R2). -/
def PlateSpec.plate (q : PlateSpec) : Plate where
  id := q.id
  state := .loading
  width := q.width
  height := q.height
  copies := q.copies
  completed := 0
  lead := min q.lead q.bands.length
  urgent := q.urgent
  authorised := false
  stamps := q.stamps
  bands := q.bands.map BandSpec.band
  damage := []
  overflow := 0
  clipped := 0
  late := 0

/-- Whether the plate with an id holds a buffer. -/
def State.holds (s : State) (id : Nat) : Bool := ((s.plate? id).map Plate.holdsBuffer).getD false

/-- The place, counted from 0, of the last buffer-holding plate at positions 2 and beyond (R13). -/
def State.lastHolder (s : State) : Option Nat :=
  (((indexed s.table.queue).drop 1).filter fun q => s.holds q.2).getLast?.map Prod.fst

/-- The place, counted from 0, at which a new plate joins the queue: the tail (R12), or where R13 places an urgent plate. -/
def State.place (s : State) (p : Plate) : Nat :=
  if p.urgent then
    if s.table.queue.isEmpty then 0
    else
      match s.lastHolder with
      | none => 1
      | some k => if s.needSum (s.table.queue.take k) + p.need ≤ s.pool.free.length then 1 else k + 1
  else s.table.queue.length

/-- A plate record joins the table and the queue; PLATE READY is posted where every band is BLANK (R10, R16). -/
def State.addPlate (s : State) (p : Plate) : State :=
  let s' := s.withTable ⟨s.table.plates ++ [p], s.table.queue.insertIdx (s.place p) p.id⟩
  if p.complete then s'.post (.plateReady p.id) else s'

/-- PLATE DEFINE carried out (R15, R16). -/
def plateDefine (m : Message) (s : State) : State :=
  match plateDefineBody m.body with
  | none => s.answer .badArg []
  | some q =>
    match s.defineCheck q with
    | .ok => (s.addPlate q.plate).answer .ok (encBE 1 (s.place q.plate + 1) ++ encBE 1 q.plate.lead)
    | refusal => s.answer refusal []

/-- PLATE_DEFINE (R16). -/
def execPlateDefine (s : State) : Host.Outcome State Fault Refusal := s.carryOut kindPlateDefine plateDefine

/-! ### PLATE RELEASE (R17) -/

/-- An entry whose link named the released record names none (R42). -/
def Entry.unlink (id : Nat) (e : Entry) : Entry := if e.header.plate = id then { e with linked := false } else e

/-- The same for the entry a renderer holds. -/
def Work.unlink (id : Nat) (k : Work) : Work := { k with entry := k.entry.unlink id }

/-- A plate record removed with everything in it; the entries left behind lose their link (R1, R17, R42). -/
def State.removePlate (s : State) (id : Nat) : State :=
  let s := s.withTable { s.table with plates := s.table.plates.filter fun p => !decide (p.id = id) }
  let s := s.withSegs { s.segs with queue := s.segs.queue.map (Entry.unlink id) }
  let s := s.withDecoder (s.decoder.map fun d => { d with work := d.work.unlink id })
  s.withScreener (s.screener.map fun d => { d with work := d.work.unlink id })

/-- PLATE RELEASE carried out (R17). -/
def plateRelease (m : Message) (s : State) : State :=
  match plateIdBody m.body with
  | none => s.answer .badArg []
  | some id =>
    match s.plate? id with
    | none => s.answer .notFound []
    | some p => if p.live then s.answer .state [] else (s.removePlate id).answer .ok []

/-- PLATE_RELEASE (R17). -/
def execPlateRelease (s : State) : Host.Outcome State Fault Refusal := s.carryOut kindPlateRelease plateRelease

/-! ### PLATE ABORT (R18, R19, R126) -/

/-- Whether the engine has taken the plate with an id. -/
def State.hasTaken (s : State) (id : Nat) : Bool := decide (s.engine.taken.map Taken.plate = some id)

/-- A plate taken to ABORTED: the engine stops and enters IDLE where it had taken the plate, and may take a new head
(R126). Where that abandons a running scan, the MEASURE ABANDONED stands behind the SEGMENT ABANDONED of the plate's open
segment: the model's choice (log 40). -/
def State.abortPlate (s : State) (p : Plate) : State :=
  if s.hasTaken p.id then (s.stopEngine.endPlate p .aborted true).enterIdle.takeHead
  else (s.endPlate p .aborted true).takeHead

/-- PLATE ABORT carried out (R18). -/
def plateAbort (m : Message) (s : State) : State :=
  match plateIdBody m.body with
  | none => s.answer .badArg []
  | some id =>
    match s.plate? id with
    | none => s.answer .notFound []
    | some p => if p.live then (s.abortPlate p).answer .ok [] else s.answer .state []

/-- PLATE_ABORT (R18). -/
def execPlateAbort (s : State) : Host.Outcome State Fault Refusal := s.carryOut kindPlateAbort plateAbort

/-! ### BAND QUERY (R20) -/

/-- BAND QUERY carried out (R20). That NOTFOUND comes before BADARG for the count or the first band is the model's choice
(log 39). -/
def bandQuery (m : Message) (s : State) : State :=
  if m.body.length = 4 then
    match s.plate? (field m.body 0 2) with
    | none => s.answer .notFound []
    | some p =>
      let first := field m.body 2 1
      let count := field m.body 3 1
      if count = 0 ∨ 32 < count ∨ p.bands.length ≤ first then s.answer .badArg []
      else s.answer .ok (p.queryBytes first count)
  else s.answer .badArg []

/-- BAND_QUERY (R20). -/
def execBandQuery (s : State) : Host.Outcome State Fault Refusal := s.carryOut kindBandQuery bandQuery

end Sys2Proof.Machine
end

