-- ==== Sys2Proof/Machine/Reset.lean ====
section
/-! DEFINITION. The resets: RESET on the control link (R182), the RESET pin asserted, and the power-on reset at its release
(R183, R184). -/

namespace Sys2Proof.Machine

/-! ### What a reset does to plate memory (R164, R170) -/

/-- Plate memory after the burst in progress is stopped: a write leaves its bytes undefined (R170, log 7). -/
def Memory.stopped (m : Memory) (a : Arbiter) : Memory :=
  match a.burst with
  | some b =>
    match b.op with
    | .write cells => m.forget b.addr cells.length
    | .read _ => m
  | none => m

/-! ### Soft reset (R182) -/

/-- A screen set after a soft reset: a LOADING set is FREE, a READY set stays, the use count is 0 (R82). -/
def ScreenSet.softReset (x : ScreenSet) : ScreenSet where
  state := match x.state with
    | .ready p => .ready p
    | .free | .loading _ => .free
  useCount := 0

/-- The link after a RESET is carried out: the buffer and the notices are gone, the counts are 0, the OK reply stands behind
the replies already waiting; the receiver and the message being sent go on (R182). -/
def Link.softReset (l : Link) : Link :=
  { l.answer .ok [] with requests := [], notices := [], lost := 0, errors := 0 }

/-- Every block in its soft reset state (R182). -/
def State.softReset (s : State) : State where
  pins := { s.pins with laser := none }
  link := s.link.softReset
  feed := .reset
  segs := .reset
  pool := .reset
  table := .reset
  decoder := none
  screener := none
  screens := s.screens.map ScreenSet.softReset
  engine := .reset s.engine.active
  monitor := .reset
  marks := .reset
  stamps := s.stamps
  arbiter := .reset
  memory := s.memory.stopped s.arbiter
  pending := s.pending

/-- RESET carried out (R182). -/
def resetRequest (m : Message) (s : State) : State := if m.body = [] then s.softReset else s.answer .badArg []

/-- RESET (R182). -/
def execSoftReset (s : State) : Host.Outcome State Fault Refusal := s.carryOut kindReset resetRequest

/-! ### The RESET pin (R183, R184) -/

/-- The pin is asserted: the message being sent stops, the laser head is off and fires no beam, FEED HOLD is released, the
burst in progress is stopped (R170, R183). -/
def State.assertReset (s : State) : State :=
  let s := s.withPins { s.pins with resetAsserted := true, laser := none }
  let s := s.withLink { s.link with sending := none }
  let s := s.withFeed { s.feed with hold := false, stallArmed := s.feed.stallArmed || s.feed.hold }
  let s := s.withMonitor { s.monitor with step := .none }
  (s.withMemory (s.memory.stopped s.arbiter)).withArbiter { s.arbiter with burst := none }

/-- RESET_PIN_ASSERTED (R183). -/
def execResetPinAsserted (s : State) : Host.Outcome State Fault Refusal := .next s.assertReset

/-- The pin is released: every block takes its power-on reset state, and the straps are read (R183, R184). The DRUM READY
level stays as it stands on the pin; the contents of plate memory are not defined (R164). -/
def State.powerOn (s : State) (address : BitVec 4) (rate : BitVec 2) : State :=
  { State.reset with
    pins := ⟨false, s.pins.drumReady, address, rate, none⟩, memory := s.memory.powerOn, pending := s.pending }

/-- POWER_ON_RESET (R183). -/
def execPowerOnReset (address : BitVec 4) (rate : BitVec 2) (s : State) : Host.Outcome State Fault Refusal :=
  .next (s.powerOn address rate)

end Sys2Proof.Machine
end

