-- ==== Sys2Proof/Machine/Dispatch.lean ====
section
/-! DEFINITION. The meaning of every command: one arm for each constructor of Instr. -/

namespace Sys2Proof.Machine

/-- The effect of a command on everything but the queue. -/
def exec (i : Instr) (s : State) : Host.Outcome State Fault Refusal :=
  match i with
  | .plateDefine => Sys2Proof.Machine.execPlateDefine s
  | .plateRelease => Sys2Proof.Machine.execPlateRelease s
  | .plateAbort => Sys2Proof.Machine.execPlateAbort s
  | .bandQuery => Sys2Proof.Machine.execBandQuery s
  | .feedClear => Sys2Proof.Machine.execFeedClear s
  | .screenBegin => Sys2Proof.Machine.execScreenBegin s
  | .screenTable => Sys2Proof.Machine.execScreenTable s
  | .screenEnd => Sys2Proof.Machine.execScreenEnd s
  | .plateExpose => Sys2Proof.Machine.execPlateExpose s
  | .exposeSetup => Sys2Proof.Machine.execExposeSetup s
  | .monitorRead => Sys2Proof.Machine.execMonitorRead s
  | .monitorMeasure => Sys2Proof.Machine.execMonitorMeasure s
  | .monitorStop => Sys2Proof.Machine.execMonitorStop s
  | .stampLoad => Sys2Proof.Machine.execStampLoad s
  | .plateReport => Sys2Proof.Machine.execPlateReport s
  | .status => Sys2Proof.Machine.execStatus s
  | .softReset => Sys2Proof.Machine.execSoftReset s
  | .unknownRequestKind => Sys2Proof.Machine.execUnknownRequestKind s
  | .messageReceived kind tag body crc => Sys2Proof.Machine.execMessageReceived kind tag body crc s
  | .messageLengthTooLong length => Sys2Proof.Machine.execMessageLengthTooLong length s
  | .messageGap => Sys2Proof.Machine.execMessageGap s
  | .transmitReply => Sys2Proof.Machine.execTransmitReply s
  | .transmitNotice => Sys2Proof.Machine.execTransmitNotice s
  | .resetPinAsserted => Sys2Proof.Machine.execResetPinAsserted s
  | .powerOnReset address rate => Sys2Proof.Machine.execPowerOnReset address rate s
  | .frameArrivalStart kind length => Sys2Proof.Machine.execFrameArrivalStart kind length s
  | .frameArrivalEnd body crc => Sys2Proof.Machine.execFrameArrivalEnd body crc s
  | .feedFrameGap => Sys2Proof.Machine.execFeedFrameGap s
  | .selectFrame => Sys2Proof.Machine.execSelectFrame s
  | .openFrame => Sys2Proof.Machine.execOpenFrame s
  | .dataFrame => Sys2Proof.Machine.execDataFrame s
  | .closeFrame => Sys2Proof.Machine.execCloseFrame s
  | .checkErrorFrame => Sys2Proof.Machine.execCheckErrorFrame s
  | .lossMark => Sys2Proof.Machine.execLossMark s
  | .renderStart renderer => Sys2Proof.Machine.execRenderStart renderer s
  | .lineDecodeEnd => Sys2Proof.Machine.execLineDecodeEnd s
  | .screenRenderEnd => Sys2Proof.Machine.execScreenRenderEnd s
  | .burstGrant => Sys2Proof.Machine.execBurstGrant s
  | .burstDone => Sys2Proof.Machine.execBurstDone s
  | .fetchLineBegin => Sys2Proof.Machine.execFetchLineBegin s
  | .index ticks pulses => Sys2Proof.Machine.execIndex ticks pulses s
  | .imageEdge ticks pulses => Sys2Proof.Machine.execImageEdge ticks pulses s
  | .drumReadyFall => Sys2Proof.Machine.execDrumReadyFall s
  | .drumReadyRise => Sys2Proof.Machine.execDrumReadyRise s
  | .indexWatchdogExpiry => Sys2Proof.Machine.execIndexWatchdogExpiry s
  | .refStepEnd pulses => Sys2Proof.Machine.execRefStepEnd pulses s
  | .beamStepPulseEnd ticks => Sys2Proof.Machine.execBeamStepPulseEnd ticks s
  | .beamStepGateTimeout pulses => Sys2Proof.Machine.execBeamStepGateTimeout pulses s
  | .syncByteReceived => Sys2Proof.Machine.execSyncByteReceived s
  | .messageSent => Sys2Proof.Machine.execMessageSent s

end Sys2Proof.Machine
end

