-- ==== Sys2Proof/Machine/Step.lean ====
section
/-! DEFINITION. One step of the model: the command at the front of the queue is taken, or the part idles. -/

namespace Sys2Proof.Machine

/-- One step. On an empty queue the part idles: no time passes in the model (log 2). -/
def step (s : State) : Host.Outcome State Fault Refusal :=
  match s.pending with
  | [] => .next s
  | c :: rest => exec c (s.withPending rest)

/-- The state with the command that a word spells at the front of its queue; no word spells one (log 4). -/
def State.withFetchWord (s : State) (nbits w : Nat) : State :=
  match decodeTableWord nbits w with
  | some c => s.withPending (c :: s.pending)
  | none => s

end Sys2Proof.Machine
end

