-- ==== Sys2Proof/Safety.lean ====
section
/-! DEFINITION. What the statements about the model are made of: when a command is due, what a reply leaves, and the laws of
the part that every step keeps. -/

namespace Sys2Proof.Machine

/-! ### When a command is due -/

/-- The request `m` stands at the head of the buffer, with `rest` behind it, and may be carried out: no request is being
carried out, the reply queue has a free place (R175), and the RESET pin is not asserted (R183). -/
def State.Heads (s : State) (m : Message) (rest : List Message) : Prop :=
  s.pins.resetAsserted = false ∧ s.link.job = none ∧ s.link.requests = m :: rest ∧ s.link.replies.length < 8

/-- The frame `body` of kind `kind` stands at the head of the frame buffer, good, with `rest` behind it, and the intake may
take it: no DATA frame is being written (R22), and the RESET pin is not asserted. -/
def State.HeadFrame (s : State) (kind : Byte) (space : Nat) (body : List Byte) (rest : List FrameItem) : Prop :=
  s.pins.resetAsserted = false ∧ s.feed.buffer = .frame kind space (.good body) :: rest ∧ s.feed.intake.writing = false

/-! ### What a reply leaves -/

/-- The state with the reply of the request at the head made, the requests behind it left in the buffer (R175). -/
def State.replied (s : State) (tag : Byte) (rest : List Message) (status : Status) (result : List Byte) : State :=
  s.withLink { s.link with requests := rest, replies := s.link.replies ++ [⟨some tag, status, result⟩] }

/-- A command answers with the next state `t`, in which INTAKE STALL has been tested (R59, log 13). -/
def Answers (c : Instr) (s t : State) : Prop := exec c s = .next t.testStall

/-- A command leaves the part as it is. -/
def Ignored (c : Instr) (s : State) : Prop := exec c s = .next s

/-! ### What the end of a band or a plate leaves -/

/-- The queue without the RENDERED and DEAD entries at its head (R45). -/
def released (q : List Entry) : List Entry := q.dropWhile fun e => decide (e.state = .rendered ∨ e.state = .dead)

/-- The QUEUED entries, linked to their plate record, whose header satisfies `which`. -/
def State.ending (s : State) (which : Header → Bool) : List Entry :=
  s.segs.queue.filter fun e => decide (e.state = .queued ∧ e.linked = true ∧ which e.header = true)

/-- The open segment, where its header satisfies `which`. -/
def State.openedOf (s : State) (which : Header → Bool) : Option OpenSegment :=
  match s.feed.intake with
  | .assembling seg => if which seg.header then some seg else none
  | .unselected | .selected | .skipping => none

/-- SEGMENT ABANDONED posted with reason INTERRUPTED for the open segment, where its header satisfies `which` (R34, R36). -/
def State.tellInterrupted (s : State) (which : Header → Bool) : State :=
  match s.openedOf which with
  | some seg =>
    s.post (.segmentAbandoned seg.header.plate seg.header.band seg.header.seq seg.received .interrupted)
  | none => s

/-- `t` is what `s` becomes as the segments whose header satisfies `which` come to an end (R33, R34, R56, R57): the QUEUED
entries are discarded; the open segment, where it is one of them, is abandoned, its intake SKIPPING, a DATA frame being written
finished and its burst given up (R170); use counts are returned (R81), and ring release acts (R45). -/
def SegmentsEnd (s t : State) (which : Header → Bool) : Prop :=
  let dies (e : Entry) : Bool := decide (e.state = .queued ∧ e.linked = true ∧ which e.header = true
    ∨ s.openedOf which ≠ none ∧ e.state = .assembling)
  t.segs = ⟨released (s.segs.queue.map fun e => if dies e then { e with state := .dead } else e), s.segs.writePos⟩
    ∧ (∀ (n : Nat) (x : ScreenSet), s.screens[n]? = some x →
        t.screens[n]? = some { x with
          useCount := x.useCount
            - ((s.ending which).countP fun e => decide (e.header.kind = .tone ∧ e.header.screen = n))
            - (match s.openedOf which with
              | some seg => if seg.header.kind = .tone ∧ seg.header.screen = n then 1 else 0
              | none => 0) })
    ∧ (s.openedOf which = none →
        t.feed.intake = s.feed.intake ∧ t.feed.buffer = s.feed.buffer ∧ t.arbiter = s.arbiter)
    ∧ ∀ seg, s.openedOf which = some seg →
      t.feed.intake = .skipping
        ∧ t.feed.buffer = (if seg.writing = none then s.feed.buffer else s.feed.buffer.drop 1)
        ∧ t.arbiter = { s.arbiter with
            burst := s.arbiter.burst.map fun b => if b.who = .intake then { b with stale := true } else b }

/-- `t` is what `s` becomes as the plate `p` enters the state `out` with `late` entries counted late (R3, R8, R19, R57), but
for its damage table: the record, the queue without it, its idle buffers at the tail of the free list in ascending band
order, and its segments ended. -/
def PlateEnds (s t : State) (p : Plate) (out : PlateState) (late : Nat) : Prop :=
  t.table.queue = s.table.queue.filter (fun q => decide (q ≠ p.id))
    ∧ (t.plate? p.id).map (fun x => { x with damage := p.damage, overflow := p.overflow }) = some { p with
        state := out, authorised := false, late := min (p.late + late) 65535
        bands := p.bands.map fun b =>
          { b with
            state := if b.state = .exposing then .ready else b.state, buffer := if b.rendering then b.buffer else none } }
    ∧ (∀ id, id ≠ p.id → t.plate? id = s.plate? id)
    ∧ t.pool.free = s.pool.free ++ p.bands.filterMap (fun b => if b.rendering then none else b.buffer)
    ∧ SegmentsEnd s t fun h => decide (h.plate = p.id)

/-- `t` is what `s` becomes as the engine, at work on a copy, stops and enters IDLE (R104, R122, R126, R140, R159): the laser
is off, a read in progress is to be discarded, the FIFO is empty, the watchdog disarmed, a pending setup applied; no step runs
and every episode is closed; the mark queue, the lane, the underrun run and the accumulator are empty. -/
def EngineStops (s t : State) : Prop :=
  t.pins = { s.pins with laser := none }
    ∧ t.engine = { s.engine with
        state := .idle, taken := none, running := false, urgent := false, fifo := [], watchdog := none
        read := s.engine.read.map fun r => { r with fate := .discard }
        active := s.engine.waiting.getD s.engine.active, waiting := none }
    ∧ t.monitor = { s.monitor with
        activity := .idle, step := .none, power := ⟨.closed, .closed, .closed, .closed⟩, blind := .closed }
    ∧ t.marks = ⟨[], none, none, none⟩

/-- The render of an entry advances band `b` of plate `p`: its link names the record, the plate is LOADING or ACTIVE, the band
EMPTY or FILLING (R6, R74). -/
def State.Advances (s : State) (e : Entry) (p : Plate) (b : Band) : Prop :=
  e.linked = true ∧ s.plate? e.header.plate = some p ∧ p.bands[e.header.band]? = some b
    ∧ (p.state = .loading ∨ p.state = .active) ∧ (b.state = .empty ∨ b.state = .filling)

/-! ### The LINE code as a sender spells it (R63, R66, R67, R196) -/

/-- A number below 2097152 in the fewest bytes of the number form. -/
def numberBytes (v : Nat) : List Byte :=
  if v < 128 then [byteOf v]
  else if v < 16384 then [byteOf (128 + v / 128), byteOf (v % 128)]
  else [byteOf (128 + v / 16384), byteOf (128 + v / 128 % 128), byteOf (v % 128)]

/-- The bytes spell the number `v` in the number form, with or without leading groups of 0: at most three bytes, the last alone
without its continuation indication (R63, R196). -/
def Spells (bytes : List Byte) (v : Nat) : Prop :=
  ∃ before last, bytes = before ++ [last] ∧ before.length ≤ 2 ∧ (∀ b ∈ before, 128 ≤ b.toNat) ∧ last.toNat < 128
    ∧ v = bytes.foldl (fun v b => v * 128 + b.toNat % 128) 0

/-- The bytes are a number at which a code error is met: malformed, its third byte with the continuation indication set, or of a
value that is `wrong` in its place (R63, R72). -/
def NumberErrs (bytes : List Byte) (wrong : Nat → Prop) : Prop :=
  bytes.length = 3 ∧ (∀ b ∈ bytes, 128 ≤ b.toNat) ∨ ∃ v, Spells bytes v ∧ wrong v

/-- A RUNS command with the given run lengths. -/
def runsBytes (runs : List Nat) : List Byte := 0x80 :: numberBytes runs.length ++ runs.flatMap numberBytes

/-- The line that runs lay, the first in the given colour, colours alternating. -/
def runsLine : Bool → List Nat → List Bool
  | _, [] => []
  | black, n :: rest => List.replicate n black ++ runsLine (!black) rest

/-- A FLIP command with the given spans, each a skip and a length. -/
def flipBytes (spans : List (Nat × Nat)) : List Byte :=
  0x81 :: numberBytes spans.length ++ spans.flatMap fun x => numberBytes x.1 ++ numberBytes x.2

/-- A line with the spans inverted, the first skip counted from `pos`. -/
def flipLine : Nat → List (Nat × Nat) → List Bool → List Bool
  | _, [], line => line
  | pos, (skip, n) :: rest, line => flipLine (pos + skip + n) rest (invertSpan (pos + skip) n line)

/-! ### Laws that every step keeps -/

/-- The bounds of the request buffer, the reply queue with the place kept for a request being carried out, the notice queue,
and the two counts (R174, R177 to R180). -/
def Link.Bounded (l : Link) : Prop :=
  l.requests.length ≤ 4 ∧ l.replies.length + (if l.job.isSome then 1 else 0) ≤ 8 ∧ l.notices.length ≤ 32 ∧ l.lost ≤ 65535
    ∧ l.errors ≤ 65535

/-- The ring law of R44 and the bound of R41: at most 256 entries, holding at most the ring's 64 MiB. -/
def Segments.RingLaw (g : Segments) : Prop := g.queue.length ≤ 256 ∧ heldRing g.queue ≤ ringSize

/-- The mark queue holds at most 8 requests, lowest line first (R153). -/
def Marks.Ordered (m : Marks) : Prop := m.queue.length ≤ 8 ∧ m.queue.Pairwise fun a b => a.line ≤ b.line

/-- The output FIFO, with the line under read, holds at most 32 lines (R99, R110). -/
def Engine.FifoLaw (e : Engine) : Prop := e.fifo.length + (if e.read.isSome then 1 else 0) ≤ 32

/-- A plate's damage table holds at most 64 records, and its counts stop at 65535 (R2, R4, R147, R148). -/
def Plate.Bounded (p : Plate) : Prop := p.damage.length ≤ 64 ∧ p.overflow ≤ 65535 ∧ p.clipped ≤ 65535 ∧ p.late ≤ 65535

/-- At most 8 plate records, no id twice (R1), and every record keeps its bounds. -/
def Table.Bounded (t : Table) : Prop :=
  t.plates.length ≤ 8 ∧ (t.plates.map Plate.id).Nodup ∧ ∀ p ∈ t.plates, p.Bounded

/-- The part has its 8 screen sets (R79) and its 32 patterns of 64 rows (R161). -/
def State.StoresWhole (s : State) : Prop :=
  s.screens.length = 8 ∧ s.stamps.length = 32 ∧ ∀ x ∈ s.stamps, x.length = 64

/-- The plate queue's law (R1, R3, R11, R99, R100): ids are unique; the queue holds each LOADING or ACTIVE plate once and no
other id; an ACTIVE plate is the one the engine has taken, at position 1; the plate taken is ACTIVE; the engine is IDLE
exactly when it has taken none. -/
def State.QueueLaw (s : State) : Prop :=
  (s.table.plates.map Plate.id).Nodup ∧ s.table.queue.Nodup
    ∧ (∀ id, id ∈ s.table.queue ↔ ∃ p ∈ s.table.plates, p.id = id ∧ p.live = true)
    ∧ (∀ p ∈ s.table.plates, p.state = .active →
        s.engine.taken.map Taken.plate = some p.id ∧ s.table.queue.head? = some p.id)
    ∧ (∀ t, s.engine.taken = some t → ∃ p ∈ s.table.plates, p.id = t.plate ∧ p.state = .active)
    ∧ (s.engine.state = .idle ↔ s.engine.taken = none)

/-- The segment identity of a header: plate id, band and seq (R41). -/
def Header.identity (h : Header) : Nat × Nat × Nat := (h.plate, h.band, h.seq)

/-- The segment queue agrees with the blocks that work on it, and keeps its laws (R24, R41 to R43, R61, R81, R88): the
ASSEMBLING entries are the open segment's one; the RENDERING entries of each kind are the one its renderer works on; no
identity is held by two live entries, the duplicate law; there are 8 screen sets, the use count of each is the number of live
TONE entries that name it, and one in use is READY, the screen set law. -/
def State.SegmentLaw (s : State) : Prop :=
  (s.segs.queue.filter fun e => decide (e.state = .assembling)).map Entry.header
      = (match s.feed.intake with
        | .assembling seg => [seg.header]
        | .unselected | .selected | .skipping => [])
    ∧ (s.segs.queue.filter fun e => decide (e.state = .rendering ∧ e.header.kind = .line))
      = (s.decoder.map fun d => d.work.entry).toList
    ∧ (s.segs.queue.filter fun e => decide (e.state = .rendering ∧ e.header.kind = .tone))
      = (s.screener.map fun d => d.work.entry).toList
    ∧ ((s.segs.queue.filter Entry.live).map fun e => e.header.identity).Nodup
    ∧ s.screens.length = 8
    ∧ ∀ (n : Nat) (x : ScreenSet), s.screens[n]? = some x →
      x.useCount = (s.segs.queue.countP fun e => decide (e.live = true ∧ e.header.kind = .tone ∧ e.header.screen = n))
        ∧ (0 < x.useCount → ∃ p, x.state = .ready p)

/-- A band's fields agree, in a plate that is LOADING or ACTIVE or not (R5 to R8): BLANK is an expected count of 0; next seq is
0 in EMPTY, below the expected count in EMPTY, FILLING and STARVED, and equal to it in READY, EXPOSING and EXPOSED; a render
is in progress in EMPTY, FILLING and STARVED only; and a buffer is held for a render, or for what a LOADING or ACTIVE plate's
band in FILLING, READY or EXPOSING has rendered. -/
def Band.Shaped (live : Bool) (b : Band) : Prop :=
  (b.state = .blank ↔ b.expected = 0) ∧ (b.state = .empty → b.nextSeq = 0)
    ∧ ((b.state = .empty ∨ b.state = .filling ∨ b.state = .starved) → b.nextSeq < b.expected)
    ∧ ((b.state = .ready ∨ b.state = .exposing ∨ b.state = .exposed) → b.nextSeq = b.expected)
    ∧ (b.rendering = true → b.state = .empty ∨ b.state = .filling ∨ b.state = .starved)
    ∧ (b.buffer ≠ none → b.rendering = true
        ∨ live = true ∧ (b.state = .filling ∨ b.state = .ready ∨ b.state = .exposing))

/-- Every plate has its ceil(H/256) bands, each in shape (R2, R5). -/
def State.BandLaw (s : State) : Prop :=
  ∀ id p, s.plate? id = some p →
    p.bands.length = (p.height + 255) / 256 ∧ ∀ (i : Nat) (b : Band), p.bands[i]? = some b → b.Shaped p.live

/-- The work of each renderer that is not free. -/
def State.works (s : State) : List Work :=
  (s.decoder.map Decode.work).toList ++ (s.screener.map Screen.work).toList

/-- A render goes into band `b` of the plate record with id `id`. -/
def Work.Into (k : Work) (id b : Nat) : Prop :=
  k.entry.linked = true ∧ k.entry.header.plate = id ∧ k.entry.header.band = b

/-- The render order law (R52, R53, R55), and the duplicate law's second half (R43). A render whose entry names a plate record
goes into a band of it whose render in progress is set and which holds the render's buffer; where it will advance the band, its
seq is the band's next seq. A band's render in progress is set for such a render only, and the two renderers never have the
same band. No live entry that names a plate record has a seq below its band's next seq. -/
def State.RenderLaw (s : State) : Prop :=
  (∀ k ∈ s.works, k.entry.linked = true → ∃ p b, s.plate? k.entry.header.plate = some p
      ∧ p.bands[k.entry.header.band]? = some b ∧ b.rendering = true ∧ b.buffer = some k.buffer
      ∧ (p.live = true → (b.state = .empty ∨ b.state = .filling) → k.entry.header.seq = b.nextSeq))
    ∧ (∀ id p i b, s.plate? id = some p → p.bands[i]? = some b → b.rendering = true → ∃ k ∈ s.works, k.Into id i)
    ∧ (s.works.Pairwise fun k j => ∀ id i, k.Into id i → ¬j.Into id i)
    ∧ ∀ e ∈ s.segs.queue, e.live = true → e.linked = true → ∃ p b, s.plate? e.header.plate = some p
      ∧ p.bands[e.header.band]? = some b ∧ b.nextSeq ≤ e.header.seq

/-- The places of buffer `n`: the free list, the bands that hold it, and the renders into bands of released plates that
hold it. -/
def State.placesOf (s : State) (n : Nat) : Nat :=
  s.pool.free.count n + (s.table.plates.flatMap fun p => p.bands.filterMap Band.buffer).count n
    + ((s.works.filter fun k => !k.entry.linked).map Work.buffer).count n

/-- The buffer law (R46, R47): each of the 160 buffers is in exactly one place. -/
def State.BufferLaw (s : State) : Prop := ∀ n, s.placesOf n = if n < 160 then 1 else 0

/-- The reservation law (R48, R50): for every plate in the queue that holds a buffer, the free buffers number at least the
summed need of the plates ahead of it. -/
def State.ReservationLaw (s : State) : Prop :=
  ∀ before id after, s.table.queue = before ++ id :: after → s.holds id = true → s.needSum before ≤ s.pool.free.length

/-- The exposure fetch of the plate taken (R7, R99, R110, R112 to R115): the copy taken is the one after those completed; the
fetch has passed every swath exposed and every line of the FIFO, and in WAIT_LEAD it stands at line 0 and does not run; every
band it has reached has been decided in this copy. A read in progress belongs to the copy taken, on a line the fetch has
passed, or is to be discarded. -/
def State.FetchLaw (s : State) : Prop :=
  (∀ t, s.engine.taken = some t →
    (s.engine.state = .waitLead → s.engine.fetchPos = 0 ∧ s.engine.running = false) ∧ 4 * s.engine.swath ≤ s.engine.fetchPos
      ∧ (∀ l ∈ s.engine.fifo, l.line < s.engine.fetchPos)
      ∧ ∃ p, s.plate? t.plate = some p ∧ t.copy = p.completed + 1
        ∧ ∀ i b, p.bands[i]? = some b → 256 * i < s.engine.fetchPos →
          b.state = .blank ∨ b.state = .starved ∨ b.state = .exposing ∨ b.state = .exposed
            ∨ b.state = .ready ∧ t.copy < p.copies)
    ∧ ∀ r, s.engine.read = some r →
      r.fate = .discard ∨ s.engine.taken = some ⟨r.plate, r.copy⟩ ∧ r.line < s.engine.fetchPos

/-- The laws of the plate queue, the segment queue, the bands and the buffers together: each rests on the others. -/
def State.Sound (s : State) : Prop :=
  s.QueueLaw ∧ s.SegmentLaw ∧ s.BandLaw ∧ s.RenderLaw ∧ s.BufferLaw ∧ s.ReservationLaw ∧ s.FetchLaw

end Sys2Proof.Machine
end

