-- ==== Sys2Proof/Certificates/Slice0/Obligations.lean ====
section
/-! DEFINITION. The statements about the model, for the provers. Each is named after what it states. A request command is
spoken of with the request `m` at the head of the buffer (`State.Heads`), a frame command with the frame at the head of the
frame buffer (`State.HeadFrame`); `Answers c s t` says that command `c` takes `s` to `t` with INTAKE STALL then tested, at the
end of the command (the model's moment: log 13). -/

section

open Sys2Proof Sys2Proof.Machine

/-! ### The machine -/

/-- A step takes the command at the front of the queue and runs its effect with the queue's rest. -/
def Obligations.StepRunsFrontCommand : Prop :=
  ∀ (c : Instr) (rest : List Instr) (s : State), step (s.withPending (c :: rest)) = exec c (s.withPending rest)

/-- The model's choice (log 2): on an empty queue the part idles. -/
def Obligations.EmptyQueueIdles : Prop := ∀ s : State, s.pending = [] → step s = .next s

/-- No command is refused, and the one fault is a burst that does not lie inside the 256 MiB of plate memory (R164, the
model's stop: log 31). -/
def Obligations.OnlyABurstOutsideMemoryStops : Prop :=
  ∀ (c : Instr) (s : State),
    (∀ r, exec c s ≠ .refused r)
      ∧ ∀ f, exec c s = .fault f →
        c = .burstDone ∧ ∃ b, s.arbiter.burst = some b ∧ 256 * 1048576 < b.addr + b.op.length

/-- POWER_ON_RESET completes from every state (the model's reading: log 9) and leaves every block in its power-on reset state
(R183): the plate table (R14), the feed (R40), the segment queue and the renderers (R60), the screen sets (R82), the marks and
stamps (R160, R161) and the arbiter (R170), with the straps as read (R184), the setup at its defaults (R102, R127) and the
monitor as R146 says. The model's choices: the DRUM READY level stays as it stands on the pin, and the step swath, the step
gate, the two counters and the scan beam set, for which no value is stated, are 0 (log 5). Plate memory lists no defined byte
(the model's form: log 6). -/
def Obligations.PowerOnResetState : Prop :=
  ∀ (address : BitVec 4) (rate : BitVec 2) (s : State), ∃ t,
    exec (.powerOnReset address rate) s = .next t
      ∧ t.pins.resetAsserted = false ∧ t.pins.address = address ∧ t.pins.rate = rate ∧ t.pins.laser = none
      ∧ t.pins.drumReady = s.pins.drumReady
      ∧ t.link = ⟨.hunt, [], none, [], [], 0, 0, none⟩
      ∧ t.feed = ⟨.between, false, [], .unselected, false, true, ⟨0, 0, 0, 0, 0⟩⟩
      ∧ t.segs = ⟨[], 0⟩ ∧ t.pool.free = List.range 160 ∧ t.table = ⟨[], []⟩ ∧ t.decoder = none ∧ t.screener = none
      ∧ t.screens = List.replicate 8 ⟨.free, 0⟩
      ∧ t.monitor = ⟨.idle, .none, 0, 0, 0, 0, .none, 0, none, ⟨0, 0, 0, 0⟩, ⟨.closed, .closed, .closed, .closed⟩, .closed,
          0, ⟨none, none, none, none⟩, none⟩
      ∧ t.engine = ⟨.idle, none, 0, false, none, [], false, 0, false, none,
          ⟨12, 2000, 0, List.replicate 8 none, 16384, 64, 15,
            ⟨⟨3482, 4710⟩, ⟨3482, 4710⟩, ⟨3482, 4710⟩, ⟨3482, 4710⟩⟩⟩, none⟩
      ∧ t.marks = ⟨[], none, none, none⟩ ∧ t.stamps = List.replicate 32 (List.replicate 64 0) ∧ t.arbiter = ⟨none, none⟩
      ∧ t.memory.cells = []

/-- RESET_PIN_ASSERTED completes from every state: the message being sent stops, the laser head is off, FEED HOLD is released
(R183), no beam is fired. While the pin is asserted the part takes no frame, no request and no drum event (R183). The model's
reading (log 8): every other block waits for the release as it stands, and no command at all is taken but the release, a
further assertion, and a change of the DRUM READY level, which sets that level and changes nothing else. -/
def Obligations.ResetPin : Prop :=
  (∀ s : State, ∃ t,
    exec .resetPinAsserted s = .next t
      ∧ t.pins = { s.pins with resetAsserted := true, laser := none } ∧ t.link = { s.link with sending := none }
      ∧ t.feed.hold = false ∧ t.feed.buffer = s.feed.buffer ∧ t.feed.intake = s.feed.intake
      ∧ t.feed.counters = s.feed.counters ∧ t.monitor = { s.monitor with step := .none } ∧ t.arbiter.burst = none
      ∧ t.segs = s.segs ∧ t.pool = s.pool ∧ t.table = s.table ∧ t.decoder = s.decoder ∧ t.screener = s.screener
      ∧ t.screens = s.screens ∧ t.engine = s.engine ∧ t.marks = s.marks ∧ t.stamps = s.stamps)
  ∧ ∀ (c : Instr) (s : State), s.pins.resetAsserted = true → c ≠ .resetPinAsserted → (∀ a r, c ≠ .powerOnReset a r) →
    (c = .drumReadyFall → exec c s = .next (s.withPins { s.pins with drumReady := false }))
      ∧ (c = .drumReadyRise → exec c s = .next (s.withPins { s.pins with drumReady := true }))
      ∧ (c ≠ .drumReadyFall → c ≠ .drumReadyRise → Ignored c s)

/-- RESET (R182): with a body it is answered BADARG and resets nothing; without one, every block takes its soft reset state
(R14, R40, R60, R82, R127, R160, R170) and the OK reply stands behind the replies already waiting; the monitor is as R146 says.
The model's choice: the step swath, the step gate, the two counters and the scan beam set, for which no value is stated, are 0
(log 5). -/
def Obligations.SoftResetState : Prop :=
  ∀ (s : State) (m : Message) (rest : List Message), s.Heads m rest → m.kind = 0x12 →
    (m.body ≠ [] → Answers .softReset s (s.replied m.tag rest .badArg []))
    ∧ (m.body = [] → ∃ t,
      exec .softReset s = .next t
        ∧ t.link = { s.link with
            requests := [], replies := s.link.replies ++ [⟨some m.tag, .ok, []⟩], notices := [], lost := 0, errors := 0 }
        ∧ t.feed = ⟨.between, false, [], .unselected, false, true, ⟨0, 0, 0, 0, 0⟩⟩
        ∧ t.segs = ⟨[], 0⟩ ∧ t.pool.free = List.range 160 ∧ t.table = ⟨[], []⟩ ∧ t.decoder = none ∧ t.screener = none
        ∧ t.engine = ⟨.idle, none, 0, false, none, [], false, 0, false, none, s.engine.active, none⟩
        ∧ t.monitor = ⟨.idle, .none, 0, 0, 0, 0, .none, 0, none, ⟨0, 0, 0, 0⟩, ⟨.closed, .closed, .closed, .closed⟩, .closed,
            0, ⟨none, none, none, none⟩, none⟩
        ∧ t.marks = ⟨[], none, none, none⟩
        ∧ t.stamps = s.stamps ∧ t.arbiter = ⟨none, none⟩ ∧ t.pins = { s.pins with laser := none }
        ∧ (∀ (n : Nat) (x : ScreenSet), s.screens[n]? = some x →
            t.screens[n]? =
              some (ScreenSet.mk (match x.state with | .ready p => .ready p | .free => .free | .loading _ => .free) 0))
        ∧ ((∀ b cells, s.arbiter.burst = some b → b.op ≠ .write cells) → t.memory = s.memory))

/-! ### The control link -/

/-- The receiver (R171, R172, R174, R177): SYNC_BYTE_RECEIVED in HUNT begins a message, and inside a message is data; a good
message joins the request buffer at its tail; where the buffer holds 4, an OVERFLOW reply with its tag is made, unless the
reply queue has no place for it. -/
def Obligations.ReceiverTakesMessages : Prop :=
  (∀ s : State, s.pins.resetAsserted = false →
    (s.link.receiver = .hunt → Answers .syncByteReceived s (s.withLink { s.link with receiver := .receiving }))
    ∧ (s.link.receiver = .receiving → Ignored .syncByteReceived s))
  ∧ ∀ (kind tag : BitVec 8) (body : List (BitVec 8)) (crc : BitVec 16) (s : State),
    s.pins.resetAsserted = false → s.link.receiver = .receiving → body.length ≤ 4096 →
    crc16 (encBE 2 body.length ++ kind :: tag :: body) = crc →
    (s.link.requests.length < 4 →
      Answers (.messageReceived kind tag body crc) s
        (s.withLink { s.link with receiver := .hunt, requests := s.link.requests ++ [⟨kind, tag, body⟩] }))
    ∧ (4 ≤ s.link.requests.length → s.link.replies.length + (if s.link.job.isSome then 1 else 0) < 8 →
      Answers (.messageReceived kind tag body crc) s
        (s.withLink { s.link with
          receiver := .hunt, replies := s.link.replies ++ [⟨some tag, .overflow, []⟩] }))
    ∧ (4 ≤ s.link.requests.length → 8 ≤ s.link.replies.length + (if s.link.job.isSome then 1 else 0) →
      Answers (.messageReceived kind tag body crc) s (s.withLink { s.link with receiver := .hunt }))

/-- A link error (R172): a message whose check differs, a length above 4096, a gap inside a message. The receiver hunts, the
link error count rises by 1 up to 65535, and a LINK ERROR reply without a tag is made where it has a place. -/
def Obligations.LinkErrors : Prop :=
  ∀ (c : Instr) (s : State), s.pins.resetAsserted = false → s.link.receiver = .receiving →
    (c = .messageGap ∨ (∃ n : BitVec 16, 4096 < n.toNat ∧ c = .messageLengthTooLong n)
      ∨ ∃ kind tag body crc, body.length ≤ 4096 ∧ crc16 (encBE 2 body.length ++ kind :: tag :: body) ≠ crc
          ∧ c = .messageReceived kind tag body crc) →
    Answers c s (s.withLink { s.link with
      receiver := .hunt
      errors := min (s.link.errors + 1) 65535
      replies := if s.link.replies.length + (if s.link.job.isSome then 1 else 0) < 8 then
          s.link.replies ++ [⟨none, .linkError, []⟩] else s.link.replies })

/-- The transmitter (R177, R179, R187): free, it begins the reply at the head of its queue, with its tag, status code and
tag-present flag; with no reply waiting, the notice at the head of its queue, whose lost field takes the lost count, which
becomes 0. At the end of a message it is free and begins the next in the same order. Link transmit carries the bytes of the
message being sent: sync, length, kind, tag, body and CRC-16, and nothing where none is (R185; read from the state: log 38). -/
def Obligations.TransmitterOrder : Prop :=
  (∀ s : State, s.linkTransmit = s.link.sending.map fun m =>
    let covered := encBE 2 m.body.length ++ m.kind :: m.tag :: m.body
    0xA5 :: covered ++ encBE 2 (crc16 covered).toNat)
  ∧ ∀ (s : State), s.pins.resetAsserted = false →
    (∀ r rest, s.link.replies = r :: rest →
      let code : BitVec 8 := match r.status with
        | .ok => 0 | .busy => 1 | .full => 2 | .exists => 3 | .notFound => 4 | .badArg => 5 | .badSeq => 6 | .state => 7
        | .incomplete => 8 | .overflow => 9 | .linkError => 10
      let t := s.withLink { s.link with
        replies := rest
        sending := some ⟨0x80, r.tag.getD 0, code :: (if r.tag.isSome then 1 else 0) :: r.result⟩ }
      (s.link.sending = none → Answers .transmitReply s t) ∧ (∀ m, s.link.sending = some m → Answers .messageSent s t))
    ∧ (∀ n rest, s.link.replies = [] → s.link.notices = n :: rest →
      let t := s.withLink { s.link with
        notices := rest, lost := 0, sending := some ⟨n.kind, 0, encBE 2 s.link.lost ++ n.fields⟩ }
      (s.link.sending = none → Answers .transmitNotice s t) ∧ (∀ m, s.link.sending = some m → Answers .messageSent s t))
    ∧ (∀ m, s.link.replies = [] → s.link.notices = [] → s.link.sending = some m →
      Answers .messageSent s (s.withLink { s.link with sending := none }))

/-- UNKNOWN_REQUEST_KIND (R173): a request whose kind is none of 0x01 to 0x12 but for 0x0C is answered BADARG in its turn,
and nothing else changes. -/
def Obligations.UnknownKindIsBadArg : Prop :=
  ∀ (s : State) (m : Message) (rest : List Message), s.Heads m rest →
    (m.kind = 0 ∨ m.kind = 0x0C ∨ 0x12 < m.kind.toNat) →
    Answers .unknownRequestKind s (s.replied m.tag rest .badArg [])

/-- STATUS (R181): answered OK with the 55 bytes of R190 in every state, BADARG with a body; and every one of the bytes. -/
def Obligations.StatusReports : Prop :=
  ∀ (s : State) (m : Message) (rest : List Message), s.Heads m rest → m.kind = 0x11 →
    (m.body ≠ [] → Answers .status s (s.replied m.tag rest .badArg []))
    ∧ (m.body = [] → Answers .status s (s.replied m.tag rest .ok s.statusBytes))
    ∧ s.statusBytes.length = 55
    ∧ (let flag (b : Bool) : List (BitVec 8) := [if b then 1 else 0]
      let identity (h : Option Header) : List (BitVec 8) :=
        match h with
        | none => [0, 0, 0, 0, 0]
        | some h => 1 :: encBE 2 h.plate ++ [byteOf h.band, byteOf h.seq]
      let taken : List (BitVec 8) :=
        match s.engine.taken with
        | none => [0, 0, 0, 0, 0, 0]
        | some t => 1 :: encBE 2 t.plate ++ [byteOf t.copy] ++ encBE 2 s.engine.swath
      let engine : List (BitVec 8) :=
        match s.engine.state with
        | .idle => [0, 0]
        | .waitLead => [1, 0]
        | .waitDrum => [2, 0]
        | .leadIn => [3, 0]
        | .exposing => [4, 0]
        | .change .awaitFall => [5, 0]
        | .change .awaitRise => [5, 1]
        | .change .awaitIndex => [5, 2]
      let intake : List (BitVec 8) :=
        match s.feed.intake with
        | .unselected => 0 :: identity none
        | .selected => 1 :: identity none
        | .assembling seg => 2 :: identity (some seg.header)
        | .skipping => 3 :: identity none
      let activity : BitVec 8 :=
        match s.monitor.activity with | .idle => 0 | .exposure => 1 | .scanSingle => 2 | .scanContinuous => 3
      let step : BitVec 8 := match s.monitor.step with | .none => 0 | .ref => 1 | .beam k => byteOf (2 + k.val)
      s.statusBytes =
        [byteOf s.pins.address.toNat, byteOf s.pins.rate.toNat] ++ engine
          ++ encBE 2 (match s.table.queue with | [] => 0 | id :: _ => id) ++ taken
          ++ [byteOf s.engine.fifo.length] ++ flag s.engine.urgent ++ flag s.engine.waiting.isSome
          ++ [byteOf s.pool.free.length] ++ encBE 2 s.segs.queue.length
          ++ encBE 4 (67108864 - (s.segs.queue.map fun e => e.header.declared).sum)
          ++ identity (s.decoder.map fun d => d.work.entry.header)
          ++ identity (s.screener.map fun d => d.work.entry.header) ++ intake ++ flag s.feed.hold
          ++ encBE 2 s.feed.counters.checkErrors ++ encBE 2 s.feed.counters.overruns ++ encBE 2 s.feed.counters.strays
          ++ encBE 2 s.feed.counters.duplicates ++ encBE 2 s.feed.counters.refusals
          ++ [activity, step] ++ encBE 2 s.link.lost ++ encBE 2 s.link.errors)

/-! ### Plates and bands -/

/-- PLATE_DEFINE refused (R15): the conditions in the order of the table; a refused request changes nothing else. -/
def Obligations.PlateDefineRefusals : Prop :=
  ∀ (s : State) (m : Message) (rest : List Message), s.Heads m rest → m.kind = 0x01 →
    ((m.body.length < 11 ∨ m.body.length ≠ 11 + 5 * field m.body 9 1 + 6 * field m.body 10 1) →
      Answers .plateDefine s (s.replied m.tag rest .badArg []))
    ∧ ∀ q, plateDefineBody m.body = some q →
      ((∃ p ∈ s.table.plates, p.id = q.id) → Answers .plateDefine s (s.replied m.tag rest .exists []))
      ∧ ((∀ p ∈ s.table.plates, p.id ≠ q.id) →
        (8 ≤ s.table.plates.length → Answers .plateDefine s (s.replied m.tag rest .full []))
        ∧ (s.table.plates.length < 8 →
          (q.id = 0 ∨ q.width < 1024 ∨ 32768 < q.width ∨ q.width % 32 ≠ 0 ∨ q.height < 256 ∨ 32768 < q.height
            ∨ q.bands.length ≠ (q.height + 255) / 256 ∨ q.copies = 0 ∨ 8 < q.copies ∨ q.lead = 0 ∨ 16 < q.lead
            ∨ 8 < q.stamps.length ∨ ∃ t ∈ q.stamps, 31 < t.pattern) →
          Answers .plateDefine s (s.replied m.tag rest .badArg [])))

/-- PLATE_DEFINE accepted (R16): the record with the values of R2 and R5, its place in the queue (R12, R13: the place counted
from 0 that `State.place` gives), the reply, and PLATE READY where every band is BLANK (R10). And what the body says, byte by
byte, where its length is the one that its two counts imply (R189). -/
def Obligations.PlateDefineAccepted : Prop :=
  (∀ body : List (BitVec 8),
    let stamps := field body 9 1
    let bands := field body 10 1
    (body.length < 11 ∨ body.length ≠ 11 + 5 * stamps + 6 * bands → plateDefineBody body = none)
    ∧ (11 ≤ body.length → body.length = 11 + 5 * stamps + 6 * bands → ∃ q, plateDefineBody body = some q
      ∧ q.id = field body 0 2 ∧ q.width = field body 2 2 ∧ q.height = field body 4 2 ∧ q.copies = field body 6 1
      ∧ q.lead = field body 7 1 ∧ q.urgent = decide (field body 8 1 % 2 = 1)
      ∧ q.stamps.length = stamps ∧ q.bands.length = bands
      ∧ (∀ i, i < stamps →
        let o := 11 + 5 * i
        q.stamps[i]? = some ⟨field body o 1, field body (o + 1) 2, field body (o + 3) 2⟩)
      ∧ ∀ i, i < bands →
        let o := 11 + 5 * stamps + 6 * i
        q.bands[i]? = some ⟨field body o 1,
          if field body (o + 1) 1 % 2 = 1 then some (BitVec.ofNat 32 (field body (o + 2) 4)) else none⟩))
  ∧ ∀ (s : State) (m : Message) (rest : List Message) (q : PlateSpec), s.Heads m rest → m.kind = 0x01 →
    plateDefineBody m.body = some q → (∀ p ∈ s.table.plates, p.id ≠ q.id) → s.table.plates.length < 8 →
    q.id ≠ 0 → 1024 ≤ q.width → q.width ≤ 32768 → q.width % 32 = 0 → 256 ≤ q.height → q.height ≤ 32768 →
    q.bands.length = (q.height + 255) / 256 → 1 ≤ q.copies → q.copies ≤ 8 → 1 ≤ q.lead → q.lead ≤ 16 →
    q.stamps.length ≤ 8 → (∀ t ∈ q.stamps, t.pattern ≤ 31) →
    let bands : List Band := q.bands.map fun b =>
      ⟨b.expected, 0, if b.expected = 0 then .blank else .empty, none, false, false, b.signature, none⟩
    let p : Plate := ⟨q.id, .loading, q.width, q.height, q.copies, 0, min q.lead q.bands.length, q.urgent, false, q.stamps,
      bands, [], 0, 0, 0⟩
    let s' := s.withTable ⟨s.table.plates ++ [p], s.table.queue.insertIdx (s.place p) q.id⟩
    Answers .plateDefine s
      ((if ∀ b ∈ q.bands, b.expected = 0 then s'.post (.plateReady q.id) else s').replied m.tag rest .ok
        [byteOf (s.place p + 1), byteOf (min q.lead q.bands.length)])

/-- Where a new plate joins the queue, its place counted from 0 (R12, R13). -/
def Obligations.PlacementOfNewPlate : Prop :=
  ∀ (s : State) (p : Plate),
    (p.urgent = false → s.place p = s.table.queue.length)
    ∧ (p.urgent = true → s.table.queue = [] → s.place p = 0)
    ∧ (p.urgent = true → s.table.queue ≠ [] →
      ((∀ (k id : Nat), 1 ≤ k → s.table.queue[k]? = some id → s.holds id = false) → s.place p = 1)
      ∧ ∀ (k id : Nat), 1 ≤ k → s.table.queue[k]? = some id → s.holds id = true →
        (∀ (j id' : Nat), k < j → s.table.queue[j]? = some id' → s.holds id' = false) →
        s.place p = if s.needSum (s.table.queue.take k) + p.need ≤ s.pool.free.length then 1 else k + 1)

/-- The need of a plate (R48): its bands with an expected count above 0, no buffer, neither EXPOSED nor STARVED. And the
grant test (R49): a plate in the queue is granted a buffer where the free buffers less one number at least the summed need
of the plates ahead of it; the head, where one is free. -/
def Obligations.GrantTest : Prop :=
  (∀ p : Plate, p.need = p.bands.countP fun b =>
    decide (b.expected ≠ 0 ∧ b.buffer = none ∧ b.state ≠ .exposed ∧ b.state ≠ .starved))
  ∧ ∀ (s : State) (id : Nat),
    (id ∉ s.table.queue → s.grantable id = false)
    ∧ ∀ (before after : List Nat), s.table.queue = before ++ id :: after → id ∉ before →
      ((before = [] → (s.grantable id = true ↔ 1 ≤ s.pool.free.length))
        ∧ (s.grantable id = true ↔ s.needSum before + 1 ≤ s.pool.free.length))

/-- PLATE_RELEASE (R17): a terminal record is removed, and the entries left behind, in the queue and in the renderers, lose
their link (R42). -/
def Obligations.PlateRelease : Prop :=
  ∀ (s : State) (m : Message) (rest : List Message), s.Heads m rest → m.kind = 0x02 →
    let id := field m.body 0 2
    let unlinked (e : Entry) : Entry := { e with linked := if e.header.plate = id then false else e.linked }
    (m.body.length ≠ 2 → Answers .plateRelease s (s.replied m.tag rest .badArg []))
    ∧ (m.body.length = 2 →
      (s.plate? id = none → Answers .plateRelease s (s.replied m.tag rest .notFound []))
      ∧ ∀ p, s.plate? id = some p →
        ((p.state = .loading ∨ p.state = .active) → Answers .plateRelease s (s.replied m.tag rest .state []))
        ∧ ((p.state = .done ∨ p.state = .aborted ∨ p.state = .faulted) → ∃ t,
          exec .plateRelease s = .next t
            ∧ t.table = ⟨s.table.plates.filter fun x => decide (x.id ≠ id), s.table.queue⟩
            ∧ t.link.requests = rest ∧ t.link.replies = s.link.replies ++ [⟨some m.tag, .ok, []⟩]
            ∧ t.segs = ⟨s.segs.queue.map unlinked, s.segs.writePos⟩
            ∧ t.decoder = s.decoder.map (fun d => { d with work := { d.work with entry := unlinked d.work.entry } })
            ∧ t.screener = s.screener.map (fun d => { d with work := { d.work with entry := unlinked d.work.entry } })
            ∧ t.pool = s.pool ∧ t.engine = s.engine ∧ t.monitor = s.monitor
            ∧ t.marks = s.marks ∧ t.screens = s.screens ∧ t.memory = s.memory))

/-- PLATE_ABORT (R18, R19): the replies, and for a LOADING or ACTIVE plate its end: the record ABORTED and not authorised, its
discarded QUEUED entries counted late, its damage table, overflow count and other counts kept, its place in the queue, its idle
buffers and its segments given up; the engine stopped
and IDLE where it had taken the plate (R126), with the plate's open episodes closed (R140), and untouched where it had not;
and then the head plate taken if it may be (R100). That a scan abandoned by that taking is told behind the SEGMENT ABANDONED of
the plate's open segment is the model's choice (log 40). -/
def Obligations.PlateAbort : Prop :=
  ∀ (s : State) (m : Message) (rest : List Message), s.Heads m rest → m.kind = 0x03 →
    (m.body.length ≠ 2 → Answers .plateAbort s (s.replied m.tag rest .badArg []))
    ∧ (m.body.length = 2 →
      (s.plate? (field m.body 0 2) = none → Answers .plateAbort s (s.replied m.tag rest .notFound []))
      ∧ ∀ p, s.plate? (field m.body 0 2) = some p →
        ((p.state = .done ∨ p.state = .aborted ∨ p.state = .faulted) →
          Answers .plateAbort s (s.replied m.tag rest .state []))
        ∧ ((p.state = .loading ∨ p.state = .active) → ∃ u : State,
          Answers .plateAbort s (u.takeHead.replied m.tag rest .ok [])
            ∧ PlateEnds s u p .aborted (s.ending fun h => decide (h.plate = p.id)).length
            ∧ (s.engine.taken.map Taken.plate = some p.id →
              EngineStops s u ∧ (u.plate? p.id).map Plate.damage = (s.closeEpisodes.plate? p.id).map Plate.damage)
            ∧ (s.engine.taken.map Taken.plate ≠ some p.id →
              u.engine = s.engine ∧ u.pins = s.pins ∧ u.monitor = s.monitor ∧ u.marks = s.marks
                ∧ (u.plate? p.id).map Plate.damage = some p.damage)
            ∧ (u.plate? p.id).map Plate.overflow = some p.overflow
            ∧ u.link = (s.tellInterrupted fun h => decide (h.plate = p.id)).link
            ∧ u.feed.counters = s.feed.counters ∧ u.decoder = s.decoder ∧ u.screener = s.screener ∧ u.stamps = s.stamps
            ∧ u.memory = s.memory))

/-- BAND_QUERY (R20): its refusals, and the records from the first band on, cut at the plate's last band. That NOTFOUND comes
before BADARG for the count or the first band is the model's choice (log 39). And the 18 bytes of a record (R190). -/
def Obligations.BandQuery : Prop :=
  (∀ (b : Band) (index : Nat),
    let state : BitVec 8 := match b.state with
      | .blank => 0 | .empty => 1 | .filling => 2 | .ready => 3 | .exposing => 4 | .exposed => 5 | .starved => 6
    let flag (x : Bool) : BitVec 8 := if x then 1 else 0
    let signature (x : Option (BitVec 32)) : List (BitVec 8) :=
      match x with | none => [0, 0, 0, 0, 0] | some v => 1 :: encBE 4 v.toNat
    b.bytes index =
        [byteOf index, state, byteOf b.expected, byteOf b.nextSeq]
          ++ (match b.buffer with | none => [0, 0] | some n => [1, byteOf n])
          ++ [flag b.rendering, flag b.damaged] ++ signature b.expectedSig ++ signature b.lastSig
      ∧ (b.bytes index).length = 18)
  ∧ ∀ (s : State) (m : Message) (rest : List Message), s.Heads m rest → m.kind = 0x04 →
    (m.body.length ≠ 4 → Answers .bandQuery s (s.replied m.tag rest .badArg []))
    ∧ (m.body.length = 4 →
      (s.plate? (field m.body 0 2) = none → Answers .bandQuery s (s.replied m.tag rest .notFound []))
      ∧ ∀ p, s.plate? (field m.body 0 2) = some p →
        ((field m.body 3 1 = 0 ∨ 32 < field m.body 3 1 ∨ p.bands.length ≤ field m.body 2 1) →
          Answers .bandQuery s (s.replied m.tag rest .badArg []))
        ∧ (1 ≤ field m.body 3 1 → field m.body 3 1 ≤ 32 → field m.body 2 1 < p.bands.length →
          Answers .bandQuery s (s.replied m.tag rest .ok
            (byteOf (min (field m.body 3 1) (p.bands.length - field m.body 2 1))
              :: (((indexed p.bands).drop (field m.body 2 1)).take (field m.body 3 1)).flatMap fun r => r.2.bytes r.1))))

/-! ### The page feed -/

/-- FRAME_ARRIVAL_START (R22, R23), between frames: a frame that fits is stored at the tail, and FEED HOLD is tested; one that
does not is lost, the overrun count rises, and a loss mark is placed unless the frame before it was lost too. Either is
followed by the length it announces (R194). -/
def Obligations.FrameArrivalStart : Prop :=
  ∀ (kind : BitVec 8) (length : BitVec 16) (s : State), s.pins.resetAsserted = false → s.feed.receiver = .between →
    let space := if 4096 < length.toNat then 5 else length.toNat + 5
    let level := (s.feed.buffer.map FrameItem.space).sum
    (level + space ≤ 16384 →
      Answers (.frameArrivalStart kind length) s
        (s.withFeed { s.feed with
          receiver := if 4096 < length.toNat then .overlong kind length.toNat else .stored kind length.toNat
          lastLost := false
          buffer := s.feed.buffer ++ [.frame kind space .arriving] }).testHold)
    ∧ (16384 < level + space →
      Answers (.frameArrivalStart kind length) s
        (s.withFeed { s.feed with
          receiver := .lost length.toNat
          lastLost := true
          buffer := if s.feed.lastLost then s.feed.buffer else s.feed.buffer ++ [.loss]
          counters := { s.feed.counters with overruns := min (s.feed.counters.overruns + 1) 65535 } }))

/-- FRAME_ARRIVAL_END (R21, R22): the frame followed, at the tail, becomes good where its check matches, its kind is one of
the four and its length suits it, and a check-error frame otherwise; an overlong one is a check-error frame; of a lost one
nothing is left. Each ends with the body length it announced (R194). FEED_FRAME_GAP (R194): a frame cut short is a check-error
frame of 5 bytes, and a lost one stays lost. The model's choice: a FRAME_ARRIVAL_END with another length than the frame followed
announced leaves the state as it is (log 33), and so do both commands between frames (log 1). -/
def Obligations.FrameEnds : Prop :=
  ∀ (body : List (BitVec 8)) (crc : BitVec 16) (s : State), s.pins.resetAsserted = false →
    (∀ (kind : BitVec 8) (items : List FrameItem) (k : BitVec 8) (n : Nat),
      s.feed.receiver = .stored kind body.length →
      s.feed.buffer = items ++ [.frame k n .arriving] → (∀ x ∈ items, ∀ k' n', x ≠ .frame k' n' .arriving) →
      Answers (.frameArrivalEnd body crc) s
        (s.withFeed { s.feed with
          receiver := .between
          buffer := items ++ [.frame k n
            (if crc16 (k :: encBE 2 body.length ++ body) = crc
                ∧ (k = 1 ∧ body.length = 2 ∨ k = 2 ∧ body.length = 27
                  ∨ k = 3 ∧ 1 ≤ body.length ∧ body.length ≤ 4096 ∨ k = 4 ∧ body.length = 4)
              then .good body else .checkError)] }))
    ∧ (∀ (kind : BitVec 8) (items : List FrameItem) (k : BitVec 8) (n : Nat),
      s.feed.receiver = .overlong kind body.length →
      s.feed.buffer = items ++ [.frame k n .arriving] → (∀ x ∈ items, ∀ k' n', x ≠ .frame k' n' .arriving) →
      Answers (.frameArrivalEnd body crc) s
        (s.withFeed { s.feed with receiver := .between, buffer := items ++ [.frame k n .checkError] }))
    ∧ (s.feed.receiver = .lost body.length →
      Answers (.frameArrivalEnd body crc) s (s.withFeed { s.feed with receiver := .between }))
    ∧ (∀ length, length ≠ body.length →
      ((∃ kind, s.feed.receiver = .stored kind length ∨ s.feed.receiver = .overlong kind length)
        ∨ s.feed.receiver = .lost length) →
      Ignored (.frameArrivalEnd body crc) s)
    ∧ (∀ (items : List FrameItem) (k : BitVec 8) (n : Nat),
      (∃ kind length, s.feed.receiver = .stored kind length ∨ s.feed.receiver = .overlong kind length) →
      s.feed.buffer = items ++ [.frame k n .arriving] → (∀ x ∈ items, ∀ k' n', x ≠ .frame k' n' .arriving) →
      Answers .feedFrameGap s
        (s.withFeed { s.feed with receiver := .between, buffer := items ++ [.frame k 5 .checkError] }).testHold)
    ∧ (∀ length, s.feed.receiver = .lost length →
      Answers .feedFrameGap s (s.withFeed { s.feed with receiver := .between }).testHold)
    ∧ (s.feed.receiver = .between → Ignored .feedFrameGap s ∧ Ignored (.frameArrivalEnd body crc) s)

/-- FEED HOLD (R37): tested, it is asserted from released where one of the three marks is passed, released from asserted where
all three are met, and keeps its level otherwise; its release re-arms INTAKE STALL (R59). INTAKE STALL tested (R59): with FEED
HOLD asserted, the notice armed, both renderers free, an entry QUEUED and none eligible, it is posted and disarmed, with the
entries, the free ring space, the free buffers, the identity of the oldest QUEUED entry and its plate's place in the queue (0
where the plate is not in it, which no run reaches: log 28); elsewhere nothing changes. Every command that `Answers` ends with
this test (the model's reading: log 13). -/
def Obligations.FeedHoldMarks : Prop :=
  (∀ s : State,
    let oldest := s.segs.queue.find? fun e => decide (e.state = .queued)
    (∀ e, oldest = some e → s.feed.hold = true → s.feed.stallArmed = true → s.decoder = none → s.screener = none →
      (∀ x ∈ s.segs.queue, s.eligible x = false) →
      s.testStall = (s.withFeed { s.feed with stallArmed := false }).post
        (.intakeStall s.segs.queue.length (67108864 - (s.segs.queue.map fun x => x.header.declared).sum) s.pool.free.length
          e.header.plate e.header.band e.header.seq
          (if e.header.plate ∈ s.table.queue then s.table.queue.idxOf e.header.plate + 1 else 0)))
    ∧ ((oldest = none ∨ s.feed.hold = false ∨ s.feed.stallArmed = false ∨ s.decoder ≠ none ∨ s.screener ≠ none
        ∨ ∃ x ∈ s.segs.queue, s.eligible x = true) → s.testStall = s))
  ∧ ∀ s : State,
    let level := (s.feed.buffer.map FrameItem.space).sum
    let entries := s.segs.queue.length
    let hold := if s.feed.hold then !decide (level ≤ 4096 ∧ entries ≤ 224 ∧ 8388608 ≤ s.freeRing)
      else decide (12288 ≤ level ∨ 240 ≤ entries ∨ s.freeRing < 4194304)
    s.testHold = s.withFeed { s.feed with
      hold := hold, stallArmed := if s.feed.hold = true ∧ hold = false then true else s.feed.stallArmed }

/-- The open segment abandoned (R33): its ASSEMBLING entry becomes DEAD, its screen set's use count is returned, the notice is
posted, the record ends, a DATA frame being written is finished and its burst given up (R170), and ring release acts. Ring
release (R45): a RENDERED or DEAD entry at the head of the queue is removed, FEED HOLD is tested, and the new head is looked
at; any other head stops it. A frame finished leaves the frame buffer, and FEED HOLD is tested (R22, R37). -/
def Obligations.SegmentAbandoned : Prop :=
  (∀ (s : State) (reason : Abandon) (next : Intake),
    (∀ seg, s.feed.intake = .assembling seg →
      let s1 := (s.withSegs { s.segs with queue := s.segs.queue.map fun e =>
          if e.state = .assembling then { e with state := .dead } else e }).withScreens
        (match seg.header.kind with
          | .line => s.screens
          | .tone => s.screens.modify seg.header.screen fun x => { x with useCount := x.useCount - 1 })
      let s2 := ((s1.withFeed { s.feed with intake := next }).post
        (.segmentAbandoned seg.header.plate seg.header.band seg.header.seq seg.received reason)).withArbiter
          { s.arbiter with
            burst := s.arbiter.burst.map fun b => if b.who = .intake then { b with stale := true } else b }
      s.abandon reason next = (if seg.writing.isSome then s2.finishFrame else s2).releaseRing)
    ∧ ((∀ seg, s.feed.intake ≠ .assembling seg) → s.abandon reason next = s))
  ∧ (∀ s : State,
    (s.segs.queue = [] → s.releaseRing = s)
    ∧ ∀ (e : Entry) (rest : List Entry), s.segs.queue = e :: rest →
      ((e.state = .rendered ∨ e.state = .dead) →
        s.releaseRing = ((s.withSegs { s.segs with queue := rest }).testHold).releaseRing)
      ∧ (e.state ≠ .rendered → e.state ≠ .dead → s.releaseRing = s))
  ∧ ∀ s : State, s.finishFrame = (s.withFeed { s.feed with buffer := s.feed.buffer.drop 1 }).testHold

/-- SELECT (R26): an open segment is abandoned INTERRUPTED first; the intake enters SELECTED where the mask's bit at the unit
address is 1, UNSELECTED otherwise, and the frame is finished. -/
def Obligations.SelectTaken : Prop :=
  ∀ (s : State) (n : Nat) (body : List (BitVec 8)) (rest : List FrameItem), s.HeadFrame 1 n body rest →
    let next : Intake := if (field body 0 2).testBit s.pins.address.toNat then .selected else .unselected
    ((∀ seg, s.feed.intake ≠ .assembling seg) →
      Answers .selectFrame s (s.withFeed { s.feed with intake := next, buffer := rest }).testHold)
    ∧ ((∃ seg, s.feed.intake = .assembling seg) →
      Answers .selectFrame s (s.abandon .interrupted next).finishFrame
        ∧ (s.abandon .interrupted next).finishFrame.feed.intake = next
        ∧ (s.abandon .interrupted next).finishFrame.feed.buffer = rest
        ∧ (s.abandon .interrupted next).finishFrame.feed.counters = s.feed.counters
        ∧ ∀ e ∈ (s.abandon .interrupted next).finishFrame.segs.queue, e.state ≠ .assembling)

/-- The checks on an OPEN, in the order of R28, with every condition written out: the reason of the first that fails. -/
def Obligations.OpenChecks : Prop :=
  ∀ (s : State) (r : RawHeader),
    ((∀ p, s.plate? r.plate = some p → p.state = .done ∨ p.state = .aborted ∨ p.state = .faulted) →
      s.openCheck r = some .noPlate)
    ∧ ∀ p, s.plate? r.plate = some p → (p.state = .loading ∨ p.state = .active) →
      (p.bands.length ≤ r.band → s.openCheck r = some .badBand)
      ∧ ∀ b, p.bands[r.band]? = some b →
        s.openCheck r =
          if b.expected ≤ r.seq then some .badSeq
          else if b.state = .exposing ∨ b.state = .exposed ∨ b.state = .starved then some .late
          else if (∃ e ∈ s.segs.queue, (e.state = .assembling ∨ e.state = .queued ∨ e.state = .rendering)
              ∧ e.header.plate = r.plate ∧ e.header.band = r.band ∧ e.header.seq = r.seq) ∨ r.seq < b.nextSeq then
            some .dup
          else if p.width ≤ r.x0
              ∨ (if r.band + 1 < p.bands.length then 256 else p.height - 256 * (p.bands.length - 1)) ≤ r.y0 then
            some .badRect
          else if (r.kind ≠ 1 ∧ r.kind ≠ 2) ∨ (r.mode ≠ 0 ∧ r.mode ≠ 1) ∨ r.w = 0 ∨ 32768 < r.w ∨ r.h = 0 ∨ 256 < r.h
              ∨ r.declared = 0 ∨ 16777216 < r.declared
              ∨ (r.kind = 2 ∧ (r.sw = 0 ∨ 4096 < r.sw ∨ r.sh = 0 ∨ 4096 < r.sh ∨ r.declared ≠ r.sw * r.sh ∨ 7 < r.screen
                ∨ r.checkPresent = true)) then some .badParam
          else if r.kind = 2 ∧ s.readySet r.screen = none then some .noScreen
          else if 256 ≤ s.segs.queue.length
              ∨ 67108864 - (s.segs.queue.map fun e => e.header.declared).sum < r.declared then some .noRoom
          else none

/-- OPEN (R27, R29, R30): ignored in UNSELECTED; in ASSEMBLING the open segment is abandoned first and the frame then taken
as in SELECTED; in SELECTED and SKIPPING it is refused with its reason, counted and noticed, or accepted with its entry, its
ring space, its use count and its open-segment record. And what the 27 bytes of the header say (R195), and what an accepted
entry keeps of them (R30, R41). -/
def Obligations.OpenTaken : Prop :=
  (∀ body : List (BitVec 8), openHeader body =
    { plate := field body 0 2, band := field body 2 1, seq := field body 3 1, kind := byteOf (field body 4 1)
      mode := byteOf (field body 5 1), checkPresent := decide (field body 6 1 % 2 = 1), x0 := field body 7 2
      y0 := field body 9 1, w := field body 10 2, h := field body 12 2, declared := field body 14 4
      check := field body 18 4, screen := field body 22 1, sw := field body 23 2, sh := field body 25 2 })
  ∧ (∀ (r : RawHeader) (kind : SegKind) (mode : PaintMode),
    let kept := r.toHeader kind mode
    r.segKind? = (if r.kind = 1 then some .line else if r.kind = 2 then some .tone else none)
      ∧ r.paintMode? = (if r.mode = 0 then some .replace else if r.mode = 1 then some .overprint else none)
      ∧ kept = ⟨r.plate, r.band, r.seq, kind, mode, r.x0, r.y0, r.w, r.h, r.declared,
          if r.checkPresent then some (BitVec.ofNat 32 r.check) else none, kept.screen, kept.sw, kept.sh⟩
      ∧ (kind = .tone → kept.screen = r.screen ∧ kept.sw = r.sw ∧ kept.sh = r.sh))
  ∧ ∀ (s : State) (n : Nat) (body : List (BitVec 8)) (rest : List FrameItem), s.HeadFrame 2 n body rest →
    let r := openHeader body
    (s.feed.intake = .unselected → Answers .openFrame s (s.withFeed { s.feed with buffer := rest }).testHold)
    ∧ ((∃ seg, s.feed.intake = .assembling seg) →
      exec .openFrame s = exec .openFrame (s.abandon .interrupted .selected)
        ∧ (s.abandon .interrupted .selected).HeadFrame 2 n body rest
        ∧ (s.abandon .interrupted .selected).feed.intake = .selected)
    ∧ ((s.feed.intake = .selected ∨ s.feed.intake = .skipping) →
      (s.openCheck r = some .dup →
        Answers .openFrame s (s.withFeed { s.feed with
          intake := .skipping, buffer := rest,
          counters := { s.feed.counters with duplicates := min (s.feed.counters.duplicates + 1) 65535 } }).testHold)
      ∧ (∀ reason, s.openCheck r = some reason → reason ≠ .dup →
        Answers .openFrame s
          (((if reason = .late then s.modPlate r.plate fun p => { p with late := min (p.late + 1) 65535 } else s).post
            (.segmentRefused r.plate r.band r.seq r.kind reason)).withFeed { s.feed with
              intake := .skipping, buffer := rest,
              counters := { s.feed.counters with refusals := min (s.feed.counters.refusals + 1) 65535 } }).testHold)
      ∧ (s.openCheck r = none → ∃ kind mode, r.segKind? = some kind ∧ r.paintMode? = some mode
        ∧ Answers .openFrame s
          (((s.withSegs
              ⟨s.segs.queue ++ [⟨r.toHeader kind mode, true, s.segs.writePos, .assembling⟩],
                (s.segs.writePos + r.declared) % 67108864⟩).withScreens
              (match kind with
                | .line => s.screens
                | .tone => s.screens.modify r.screen fun x => { x with useCount := x.useCount + 1 })).withFeed
            { s.feed with
              intake := .assembling ⟨r.toHeader kind mode, s.segs.writePos, 0, 0xFFFFFFFF, none⟩ }).testHold.finishFrame))

/-- DATA (R31): in ASSEMBLING a payload that fits is handed to the intake writer, and the received length and the running check
are not raised yet (the model's reading: they rise with its last byte written, log 15); one that does not fit abandons the
segment with reason LENGTH; in SELECTED the frame is counted stray; in UNSELECTED and SKIPPING it is ignored. -/
def Obligations.DataTaken : Prop :=
  ∀ (s : State) (n : Nat) (body : List (BitVec 8)) (rest : List FrameItem), s.HeadFrame 3 n body rest →
    (∀ seg, s.feed.intake = .assembling seg →
      (seg.received + body.length ≤ seg.header.declared →
        Answers .dataFrame s (s.withFeed { s.feed with intake := .assembling { seg with writing := some (body, 0) } }))
      ∧ (seg.header.declared < seg.received + body.length →
        Answers .dataFrame s (s.abandon .length .skipping).finishFrame))
    ∧ (s.feed.intake = .selected →
      Answers .dataFrame s (s.withFeed { s.feed with
        buffer := rest,
        counters := { s.feed.counters with strays := min (s.feed.counters.strays + 1) 65535 } }).testHold)
    ∧ ((s.feed.intake = .unselected ∨ s.feed.intake = .skipping) →
      Answers .dataFrame s (s.withFeed { s.feed with buffer := rest }).testHold)

/-- CLOSE (R32): in ASSEMBLING a short segment is abandoned with reason LENGTH, one whose payload check differs with reason
PAYLOAD, and a good one becomes QUEUED; the intake enters SELECTED. In SELECTED the frame is counted stray; in UNSELECTED and
SKIPPING it is ignored. -/
def Obligations.CloseTaken : Prop :=
  ∀ (s : State) (n : Nat) (body : List (BitVec 8)) (rest : List FrameItem), s.HeadFrame 4 n body rest →
    (∀ seg, s.feed.intake = .assembling seg →
      (seg.received ≠ seg.header.declared → Answers .closeFrame s (s.abandon .length .selected).finishFrame)
      ∧ (seg.received = seg.header.declared → ~~~seg.check ≠ BitVec.ofNat 32 (field body 0 4) →
        Answers .closeFrame s (s.abandon .payload .selected).finishFrame)
      ∧ (seg.received = seg.header.declared → ~~~seg.check = BitVec.ofNat 32 (field body 0 4) →
        Answers .closeFrame s
          ((s.withSegs { s.segs with queue := s.segs.queue.map fun e =>
              if e.state = .assembling then { e with state := .queued } else e }).withFeed
            { s.feed with intake := .selected, buffer := rest }).testHold))
    ∧ (s.feed.intake = .selected →
      Answers .closeFrame s (s.withFeed { s.feed with
        buffer := rest,
        counters := { s.feed.counters with strays := min (s.feed.counters.strays + 1) 65535 } }).testHold)
    ∧ ((s.feed.intake = .unselected ∨ s.feed.intake = .skipping) →
      Answers .closeFrame s (s.withFeed { s.feed with buffer := rest }).testHold)

/-- A check-error frame (R25) is counted in every intake state; it abandons an open segment with reason CHECK, and a bad
SELECT leaves the intake UNSELECTED. A loss mark (R23) abandons an open segment with reason OVERRUN and leaves the intake
UNSELECTED. -/
def Obligations.BadFrameTaken : Prop :=
  ∀ s : State, s.pins.resetAsserted = false → s.feed.intake.writing = false →
    (∀ (kind : BitVec 8) (n : Nat) (rest : List FrameItem), s.feed.buffer = .frame kind n .checkError :: rest →
      let counted := { s.feed.counters with checkErrors := min (s.feed.counters.checkErrors + 1) 65535 }
      ((∃ seg, s.feed.intake = .assembling seg) →
        Answers .checkErrorFrame s
          (((s.withFeed { s.feed with counters := counted }).abandon .check
            (if kind = 1 then .unselected else .skipping)).finishFrame))
      ∧ ((∀ seg, s.feed.intake ≠ .assembling seg) →
        Answers .checkErrorFrame s (s.withFeed { s.feed with
          intake := if kind = 1 then .unselected else s.feed.intake, buffer := rest, counters := counted }).testHold))
    ∧ ∀ rest : List FrameItem, s.feed.buffer = .loss :: rest →
      ((∃ seg, s.feed.intake = .assembling seg) →
        Answers .lossMark s (s.abandon .overrun .unselected).finishFrame)
      ∧ ((∀ seg, s.feed.intake ≠ .assembling seg) →
        Answers .lossMark s (s.withFeed { s.feed with intake := .unselected, buffer := rest }).testHold)

/-- FEED CLEAR (R39): the reply carries the five counters as they stood, and each is set to 0; with a body it is answered
BADARG and clears nothing. INTAKE STALL is tested at the command's end, the model's reading (log 13). -/
def Obligations.FeedClear : Prop :=
  ∀ (s : State) (m : Message) (rest : List Message), s.Heads m rest → m.kind = 0x05 →
    (m.body = [] →
      Answers .feedClear s ((s.withFeed { s.feed with counters := ⟨0, 0, 0, 0, 0⟩ }).replied m.tag rest .ok
        (encBE 2 s.feed.counters.checkErrors ++ encBE 2 s.feed.counters.overruns ++ encBE 2 s.feed.counters.strays
          ++ encBE 2 s.feed.counters.duplicates ++ encBE 2 s.feed.counters.refusals)))
    ∧ (m.body ≠ [] → Answers .feedClear s (s.replied m.tag rest .badArg []))

/-! ### Rendering -/

/-- RENDER_START (R51 to R53): the oldest entry that is QUEUED, of the renderer's kind and eligible becomes RENDERING, its
band's render in progress is set, a band without a buffer takes the one at the head of the free list, and the renderer
begins; and what makes an entry eligible. A render of seq 0 first writes the 256 lines of its buffer white in full, and any
other begins with its payload at once (R62, R89). -/
def Obligations.RenderStart : Prop :=
  (∀ (s : State) (kind : SegKind) (e : Entry) (before after : List Entry) (p : Plate) (b : Band) (n : Nat)
      (free : List Nat),
    s.pins.resetAsserted = false → (kind = .line → s.decoder = none) → (kind = .tone → s.screener = none) →
    s.segs.queue = before ++ e :: after → (∀ x ∈ before, ¬(x.header.kind = kind ∧ s.eligible x = true)) →
    e.header.kind = kind → s.eligible e = true →
    s.plate? e.header.plate = some p → p.bands[e.header.band]? = some b →
    (b.buffer = some n ∧ s.pool.free = free ∨ b.buffer = none ∧ s.pool.free = n :: free) →
    let k : Work := ⟨{ e with state := .rendering }, n, p.width, p.bandHeight e.header.band⟩
    Answers (.renderStart kind) s
      (let s' := (s.withSegs { s.segs with queue := before ++ { e with state := .rendering } :: after }).withPool ⟨free⟩
        let s' := s'.withTable { s.table with plates := s.table.plates.map fun x =>
          if x.id = p.id then
            { x with bands := x.bands.modify e.header.band fun b => { b with rendering := true, buffer := some n } }
          else x }
        match kind with
        | .line => s'.withDecoder (some (Decode.start k))
        | .tone => s'.withScreener (some (Screen.start k))))
  ∧ (∀ (s : State) (e : Entry), s.eligible e = true ↔
    e.state = .queued ∧ e.linked = true ∧ ∃ p b, s.plate? e.header.plate = some p ∧ p.bands[e.header.band]? = some b
      ∧ (p.state = .loading ∨ p.state = .active) ∧ e.header.seq = b.nextSeq ∧ (b.state = .empty ∨ b.state = .filling)
      ∧ b.rendering = false ∧ (b.buffer ≠ none ∨ e.header.seq = 0 ∧ s.grantable e.header.plate = true))
  ∧ ∀ k : Work,
    let h := k.entry.header
    let white (line : Nat) : Transfer := ⟨k.buffer * 1048576 + 4096 * line, List.replicate 4096 ⟨0, 0⟩⟩
    let blank : List Bool := List.replicate h.w false
    (h.seq = 0 →
      Decode.start k = ⟨k, .fill 1, 0, [], 0, blank, some 0xFFFFFFFF, none, .opening, 0, white 0⟩
        ∧ Screen.start k = ⟨k, .fill 1, 0, none, white 0⟩)
    ∧ (h.seq ≠ 0 → 1 ≤ h.h → 1 ≤ h.declared →
      Decode.start k = ⟨k, .code, 0, [], 0, blank, some 0xFFFFFFFF, none, .opening, 0, ⟨0, []⟩⟩
        ∧ Screen.start k = ⟨k, .readRow (h.sh / (2 * h.h)) [], 0, none, ⟨0, []⟩⟩)
    ∧ (∀ (d : Decode) (line : Nat) (cells : List MaskedByte) (bytes : List (BitVec 8)),
      d.work = k → d.phase = .fill line → d.transfer.cells.length ≤ cells.length →
      (line < 256 → d.burstDone (.write cells) bytes = { d with phase := .fill (line + 1), transfer := white line })
      ∧ (line = 256 → d.lineCount < h.h → d.repeatLeft = 0 → d.ahead = [] → d.readPos < h.declared →
        d.burstDone (.write cells) bytes =
          { d with phase := .code, transfer := ⟨d.transfer.addr + cells.length, []⟩ }))
    ∧ ∀ (d : Screen) (line : Nat) (cells : List MaskedByte) (bytes : List (BitVec 8)) (set : Option ScreenParams),
      d.work = k → d.phase = .fill line → d.transfer.cells.length ≤ cells.length →
      (line < 256 → d.burstDone set (.write cells) bytes = { d with phase := .fill (line + 1), transfer := white line })
      ∧ (line = 256 → d.lineCount < h.h → d.row = none → 1 ≤ h.sw →
        d.burstDone set (.write cells) bytes =
          { d with
            phase := .readRow ((2 * d.lineCount + 1) * h.sh / (2 * h.h)) []
            transfer := ⟨d.transfer.addr + cells.length, []⟩ })

/-- The end of a render (R6, R54, R76, R77, R97): the renderer is free, its RENDERING entry is RENDERED and ring release acts,
the use count is returned. A band EMPTY or FILLING of a LOADING or ACTIVE plate advances: BAND READY is posted where it is now
READY, PLATE READY where the plate is then complete (R9, R10), a clipped segment is counted (R71, R96), and a content check
mismatch sets the band's render damage and makes a CONTENT record. Any other result is discarded: its buffer returns to the
free list, and its band record, if there is one, holds no buffer and no render. The lead it may settle is looked at last
(R109). A code error makes its CODE record as it is met (R74). -/
def Obligations.RenderEnd : Prop :=
  (∀ (s : State) (c : Instr) (kind : SegKind) (k : Work) (mismatch : Bool), s.pins.resetAsserted = false →
    (c = .lineDecodeEnd ∧ kind = .line
        ∧ (∃ d, s.decoder = some d ∧ d.phase = .ended ∧ d.transfer.cells = [] ∧ d.work = k ∧ d.mismatch = mismatch)
      ∨ c = .screenRenderEnd ∧ kind = .tone ∧ mismatch = false
        ∧ ∃ d, s.screener = some d ∧ d.phase = .ended ∧ d.transfer.cells = [] ∧ d.work = k) →
    let h := k.entry.header
    ∃ u : State, Answers c s u.settleLead
      ∧ u.decoder = (if kind = .line then none else s.decoder)
      ∧ u.screener = (if kind = .tone then none else s.screener)
      ∧ u.segs = ⟨released (s.segs.queue.map fun e =>
          if e.state = .rendering ∧ e.header.kind = kind then { e with state := .rendered } else e), s.segs.writePos⟩
      ∧ u.screens = returnUse h s.screens
      ∧ (∀ p b, s.Advances k.entry p b →
        let after : Band := { b with
          nextSeq := b.nextSeq + 1, rendering := false, damaged := b.damaged || mismatch
          state := if b.nextSeq + 1 = b.expected then .ready else .filling }
        let bands := p.bands.modify h.band fun _ => after
        let content : DamageRecord := ⟨.content, p.completed + 1, h.band, 256 * h.band + h.y0,
          256 * h.band + min (h.y0 + h.h - 1) (p.bandHeight h.band - 1), none, none, some h.seq, none, none⟩
        let stored := mismatch = true ∧ p.damage.length < 64
        let s1 := if stored then s.post (.damage p.id p.damage.length content) else s
        let s2 := if after.state = .ready then s1.post (.bandReady p.id h.band) else s1
        let s3 := if after.state = .ready ∧ ∀ x ∈ bands, x.state = .blank ∨ x.nextSeq = x.expected then
            s2.post (.plateReady p.id) else s2
        u.pool = s.pool ∧ u.link = s3.link
          ∧ u.plate? p.id = some { p with
              bands := bands
              damage := if stored then p.damage ++ [content] else p.damage
              overflow := if mismatch = true ∧ 64 ≤ p.damage.length then min (p.overflow + 1) 65535 else p.overflow
              clipped := if k.width < h.x0 + h.w ∨ k.bandHeight < h.y0 + h.h then min (p.clipped + 1) 65535
                else p.clipped })
      ∧ ((∀ p b, ¬s.Advances k.entry p b) →
        u.pool.free = s.pool.free ++ [k.buffer] ∧ u.link = s.link
          ∧ u.table = { s.table with plates := s.table.plates.map fun x =>
              if k.entry.linked = true ∧ x.id = h.plate then
                { x with bands := x.bands.modify h.band fun b => { b with rendering := false, buffer := none } }
              else x })
      ∧ u.table.queue = s.table.queue ∧ u.engine = s.engine ∧ u.marks = s.marks ∧ u.stamps = s.stamps
      ∧ u.memory = s.memory ∧ u.monitor = s.monitor ∧ u.pins = s.pins
      ∧ u.feed.intake = s.feed.intake ∧ u.feed.buffer = s.feed.buffer ∧ u.feed.counters = s.feed.counters)
  ∧ ∀ (s : State) (d d' : Decode),
    ((d.error ≠ none ∨ d'.error = none) → s.stepDecoder d d' = s.withDecoder (some d'))
    ∧ ∀ e, d.error = none → d'.error = some e →
      let h := d'.work.entry.header
      ((∀ p b, ¬s.Advances d'.work.entry p b) → s.stepDecoder d d' = s.withDecoder (some d'))
      ∧ ∀ p b, s.Advances d'.work.entry p b →
        let last := p.lastLine h.band
        s.stepDecoder d d' =
          ((s.withDecoder (some d')).modBand p.id h.band fun b => { b with damaged := true }).addRecord p.id
            ⟨.code, p.completed + 1, h.band, min (256 * h.band + h.y0 + e) last, min (256 * h.band + h.y0 + h.h - 1) last,
              none, none, some h.seq, none, none⟩

/-- The LINE code (R63, R66, R67, R196): a RUNS command spelled with its run count and run lengths produces the line of those
runs, white first; a FLIP spelled with its spans produces the reference line with every span inverted. WHITE k and SAME k
repeat the white or the reference line, unless they would pass the rectangle's height (R64, R65); an opening byte of 0x82 to
0xFF is a code error (R72). A number may be spelled in more bytes than it needs (R63). Within RUNS and FLIP a code error is met
at the number that makes it: one that is malformed; a run count of 0 or above 32768; a run length of 0 past the first, one by
which the runs pass the width, and a last one that leaves them short of it; a span count above 16384; a span length of 0, and
one by which the span ends past the width (R63, R66, R67, R72). A line produced becomes the reference line, enters the content
check where one is given, and is painted in the segment's mode (R63, R69, R75). After a code error REPLACE whitens the
rectangle's remaining lines, from the one it was met at, and OVERPRINT leaves them; bytes left over after the last line change no pixel (R68, R73). The decoder goes on
by moves till it waits for plate memory or has ended. -/
def Obligations.LineCode : Prop :=
  (∀ d : Decode, d.reader = .opening →
    (∀ runs : List Nat, runs ≠ [] → runs.length ≤ 32768 → runs.sum = d.work.entry.header.w →
      d.work.entry.header.w ≤ 32768 → (∀ n ∈ runs.tail, n ≠ 0) →
      (runsBytes runs).foldl Decode.eat d = d.produce (runsLine false runs))
    ∧ (∀ spans : List (Nat × Nat), spans.length ≤ 16384 →
      (spans.map fun x => x.1 + x.2).sum ≤ d.work.entry.header.w → d.work.entry.header.w ≤ 32768 →
      (∀ x ∈ spans, x.2 ≠ 0) →
      (flipBytes spans).foldl Decode.eat d = d.produce (flipLine 0 spans d.reference))
    ∧ (∀ b : BitVec 8, b.toNat < 0x80 →
      d.eat b =
        (let k := b.toNat % 0x40 + 1
          if d.work.entry.header.h < d.lineCount + k then d.fail
          else { d with
            reference := if b.toNat < 0x40 then List.replicate d.work.entry.header.w false else d.reference
            repeatLeft := k }))
    ∧ (∀ b : BitVec 8, 0x82 ≤ b.toNat → d.eat b = d.fail)
    ∧ (∀ count : List (BitVec 8),
      (NumberErrs count (fun n => n = 0 ∨ 32768 < n) → (0x80 :: count).foldl Decode.eat d = d.fail)
      ∧ (NumberErrs count (fun n => 16384 < n) → (0x81 :: count).foldl Decode.eat d = d.fail))
    ∧ (∀ (count : List (BitVec 8)) (n : Nat) (spelled : List (List (BitVec 8))) (runs : List Nat), Spells count n →
      1 ≤ n → n ≤ 32768 → List.Forall₂ Spells spelled runs → (∀ x ∈ runs.tail, x ≠ 0) →
      runs.sum ≤ d.work.entry.header.w →
      let taken := 0x80 :: count ++ spelled.flatten
      (runs.length = n → runs.sum = d.work.entry.header.w →
        taken.foldl Decode.eat d = d.produce (runsLine false runs))
      ∧ ∀ length : List (BitVec 8), runs.length < n →
        NumberErrs length (fun v => v = 0 ∧ runs ≠ [] ∨ d.work.entry.header.w < runs.sum + v
          ∨ runs.length + 1 = n ∧ runs.sum + v < d.work.entry.header.w) →
        (taken ++ length).foldl Decode.eat d = d.fail)
    ∧ ∀ (count : List (BitVec 8)) (n : Nat) (spelled : List (List (BitVec 8) × List (BitVec 8))) (spans : List (Nat × Nat)),
      Spells count n → n ≤ 16384 → List.Forall₂ (fun b x => Spells b.1 x.1 ∧ Spells b.2 x.2) spelled spans →
      (∀ x ∈ spans, x.2 ≠ 0) →
      let past := (spans.map fun x => x.1 + x.2).sum
      past ≤ d.work.entry.header.w →
      let taken := 0x81 :: count ++ spelled.flatMap fun b => b.1 ++ b.2
      (spans.length = n → taken.foldl Decode.eat d = d.produce (flipLine 0 spans d.reference))
      ∧ ∀ skip length : List (BitVec 8), spans.length < n →
        (NumberErrs skip (fun _ => False) → (taken ++ skip).foldl Decode.eat d = d.fail)
        ∧ ∀ v, Spells skip v → NumberErrs length (fun x => x = 0 ∨ d.work.entry.header.w < past + v + x) →
          (taken ++ skip ++ length).foldl Decode.eat d = d.fail)
  ∧ ∀ d : Decode,
    let h := d.work.entry.header
    (∀ line : List Bool, d.produce line = { d with
        reference := line, lineCount := d.lineCount + 1, reader := .opening
        check := if h.check = none then d.check else d.check.map fun c => crc32Feed c (packLine line)
        transfer := d.work.lineTransfer h.mode d.lineCount line })
    ∧ d.fail = { d with
        error := some d.lineCount, ahead := [], repeatLeft := 0, reader := .opening
        phase := match h.mode with | .replace => .whiten d.lineCount | .overprint => .ended }
    ∧ (d.transfer.cells ≠ [] → d.move = none)
    ∧ (d.transfer.cells = [] →
      (d.phase = .ended → d.move = none)
      ∧ (∀ y, d.phase = .whiten y →
        (y < h.h → d.move = some { d with
          phase := .whiten (y + 1), transfer := d.work.lineTransfer .replace y (List.replicate h.w false) })
        ∧ (h.h ≤ y → d.move = some { d with phase := .ended }))
      ∧ (d.phase = .code →
        (h.h ≤ d.lineCount → d.readPos = h.declared → d.move = some { d with phase := .ended })
        ∧ (h.h ≤ d.lineCount → d.readPos ≠ h.declared →
          d.move = some { d with error := some (h.h - 1), ahead := [], phase := .ended })
        ∧ (∀ n, d.lineCount < h.h → d.repeatLeft = n + 1 → d.move = some { d.produce d.reference with repeatLeft := n })
        ∧ (d.lineCount < h.h → d.repeatLeft = 0 →
          (∀ b rest, d.ahead = b :: rest → d.move = some ({ d with ahead := rest, readPos := d.readPos + 1 }.eat b))
          ∧ (d.ahead = [] → d.readPos < h.declared → d.move = none)
          ∧ (d.ahead = [] → h.declared ≤ d.readPos → d.move = some d.fail))))
    ∧ (d.move = none → d.advance = d)
    ∧ ∀ d', d.move = some d' → d.advance = d'.advance

/-! ### Screen sets -/

/-- SCREEN BEGIN (R83), with the body's fields at their places (R188): its refusals in the order of the table, and the set
LOADING with fill position 0 and the values given. -/
def Obligations.ScreenBegin : Prop :=
  ∀ (s : State) (m : Message) (rest : List Message), s.Heads m rest → m.kind = 0x06 → s.screens.length = 8 →
    let n := field m.body 0 1
    let cell := field m.body 1 1
    let a (i : Nat) := signedField m.body (2 + 4 * i)
    let curve := (List.range 17).map fun i => field m.body (18 + 2 * i) 2
    ((m.body.length ≠ 52 ∨ 7 < n) → Answers .screenBegin s (s.replied m.tag rest .badArg []))
    ∧ (m.body.length = 52 → ∀ x, s.screens[n]? = some x →
      (0 < x.useCount → Answers .screenBegin s (s.replied m.tag rest .busy []))
      ∧ (x.useCount = 0 →
        let good := (cell = 16 ∨ cell = 32 ∨ cell = 64 ∨ cell = 128)
          ∧ (∀ i < 4, -1048576 ≤ a i ∧ a i ≤ 1048575) ∧ ∀ c ∈ curve, c ≤ 4095
        (¬good → Answers .screenBegin s (s.replied m.tag rest .badArg []))
        ∧ (good →
          Answers .screenBegin s ((s.withScreens (s.screens.modify n fun x =>
            { x with state := .loading ⟨cell, a 0, a 1, a 2, a 3, curve, 0⟩ })).replied m.tag rest .ok []))))

/-- SCREEN TABLE (R85, R86): its refusals in the order of the table; an accepted run is handed to the arbiter and the request
keeps its place; with the last burst written the fill position advances and the OK reply carries it. -/
def Obligations.ScreenTable : Prop :=
  (∀ (s : State) (m : Message) (rest : List Message), s.Heads m rest → m.kind = 0x07 →
    let n := field m.body 0 1
    let first := field m.body 1 2
    let count := field m.body 3 2
    let values := (List.range count).map fun i => field m.body (5 + 2 * i) 2
    let form := 5 ≤ m.body.length ∧ n ≤ 7 ∧ 1 ≤ count ∧ count ≤ 1024 ∧ m.body.length = 5 + 2 * count
    (¬form → Answers .screenTable s (s.replied m.tag rest .badArg []))
    ∧ (form →
      ((∀ p, (s.screens[n]?).map ScreenSet.state ≠ some (.loading p)) →
        Answers .screenTable s (s.replied m.tag rest .state []))
      ∧ ∀ p, (s.screens[n]?).map ScreenSet.state = some (.loading p) →
        (first ≠ p.fill → Answers .screenTable s (s.replied m.tag rest .badSeq (encBE 2 p.fill)))
        ∧ (first = p.fill → (p.cell * p.cell < first + count ∨ ∃ v ∈ values, v = 0 ∨ 4095 < v) →
          Answers .screenTable s (s.replied m.tag rest .badArg []))
        ∧ (first = p.fill → first + count ≤ p.cell * p.cell → (∀ v ∈ values, 1 ≤ v ∧ v ≤ 4095) →
          Answers .screenTable s (s.withLink { s.link with job := some ⟨n, first, m.body.drop 5, 0⟩ }))))
  ∧ ∀ (s : State) (j : TableJob) (m : Message) (rest : List Message) (k : Nat),
    s.link.job = some j → s.link.requests = m :: rest →
    (j.written + k < j.bytes.length →
      s.tableBurstDone k = s.withLink { s.link with job := some { j with written := j.written + k } })
    ∧ (j.written + k = j.bytes.length → ∀ p u, s.screens[j.set]? = some ⟨.loading p, u⟩ →
      s.tableBurstDone k =
        (s.withScreens (s.screens.set j.set ⟨.loading { p with fill := j.first + j.bytes.length / 2 }, u⟩)).withLink
          { s.link with
            job := none, requests := rest
            replies := s.link.replies ++ [⟨some m.tag, .ok, encBE 2 (j.first + j.bytes.length / 2)⟩] })

/-- SCREEN END (R87): BADARG for another length or a set above 7, STATE for a set not LOADING; a LOADING set becomes READY
where its fill position is T·T, and is answered INCOMPLETE with the fill position and T·T where it is below. That BADARG comes
first is the model's choice (log 39). INTAKE STALL is tested at the command's end, the model's reading (log 13). -/
def Obligations.ScreenEnd : Prop :=
  ∀ (s : State) (m : Message) (rest : List Message), s.Heads m rest → m.kind = 0x08 →
    let n := field m.body 0 1
    ((m.body.length ≠ 1 ∨ 7 < n) → Answers .screenEnd s (s.replied m.tag rest .badArg []))
    ∧ (m.body.length = 1 → n ≤ 7 →
      ((∀ p, (s.screens[n]?).map ScreenSet.state ≠ some (.loading p)) →
        Answers .screenEnd s (s.replied m.tag rest .state []))
      ∧ ∀ p u, s.screens[n]? = some ⟨.loading p, u⟩ →
        (p.fill = p.cell * p.cell →
          Answers .screenEnd s ((s.withScreens (s.screens.set n ⟨.ready p, u⟩)).replied m.tag rest .ok []))
        ∧ (p.fill < p.cell * p.cell →
          Answers .screenEnd s (s.replied m.tag rest .incomplete (encBE 2 p.fill ++ encBE 2 (p.cell * p.cell)))))

/-- The screening law (R90, R91, R93 to R95): the source sample lies inside the tile, the corrected tone is interpolated
between two curve points and lies in 0 to 4095, the cell coordinates lie in 0 to T - 1, and against thresholds of 1 to 4095 a
corrected tone of 0 never inks while one of 4095 always does. -/
def Obligations.ScreeningLaw : Prop :=
  (∀ x w sw : Nat, x < w → 0 < sw →
    sourceIndex x w sw < sw ∧ sourceIndex x w sw * (2 * w) ≤ (2 * x + 1) * sw
      ∧ (2 * x + 1) * sw < (sourceIndex x w sw + 1) * (2 * w))
  ∧ (∀ (curve : List Nat) (v : Nat), v ≤ 255 → curve.length = 17 → (∀ c ∈ curve, c ≤ 4095) →
    let c (i : Nat) : Int := (curve.getD i 0 : Nat)
    correctTone curve v = c (v / 16) + Int.fdiv ((c (v / 16 + 1) - c (v / 16)) * ((v % 16 : Nat) : Int) + 8) 16
      ∧ min (c (v / 16)) (c (v / 16 + 1)) ≤ correctTone curve v
      ∧ correctTone curve v ≤ max (c (v / 16)) (c (v / 16 + 1))
      ∧ 0 ≤ correctTone curve v ∧ correctTone curve v ≤ 4095)
  ∧ (∀ (x y cell : Nat) (a b : Int), 0 < cell →
    cellCoord x y a b cell < cell
      ∧ ((cellCoord x y a b cell : Nat) : Int) = Int.fmod (Int.fdiv ((x : Int) * a + (y : Int) * b) 65536) (cell : Int))
  ∧ ∀ (curve : List Nat) (v threshold : Nat), 1 ≤ threshold → threshold ≤ 4095 →
    (screenInk curve v threshold = true ↔ (threshold : Int) ≤ correctTone curve v)
      ∧ (correctTone curve v = 0 → screenInk curve v threshold = false)
      ∧ (correctTone curve v = 4095 → screenInk curve v threshold = true)

/-! ### Plate memory -/

/-- BURST_GRANT (R166 to R168): with the arbiter FREE, the waiting burst that stands first in the grant order is granted, and
a renderer's becomes the last served; while it is BUSY, or where no burst waits, nothing is granted. And the burst that each
requester has waiting (R165): at most 256 bytes, from where its transfer stands to the next multiple of 256 bytes from the
transfer's start, or to what remains; those on the segment ring lie inside the ring, cut short at its end, and after the cut
the multiples still count from the transfer's start (the model's reading: log 16). -/
def Obligations.BurstGrant : Prop :=
  (∀ s : State, s.pins.resetAsserted = false →
    let order : List Requester := (if s.engine.urgent then [.fetch, .intake] else [.intake, .fetch])
      ++ (if s.arbiter.lastServed = some .line then [.screener, .decoder] else [.decoder, .screener]) ++ [.screenTable]
    (∀ (before after : List Requester) (who : Requester) (b : Burst), s.arbiter.burst = none →
      order = before ++ who :: after → (∀ w ∈ before, s.waiting w = none) → s.waiting who = some b →
      b.who = who
        ∧ Answers .burstGrant s (s.withArbiter ⟨some b,
            if who = .decoder then some .line else if who = .screener then some .tone else s.arbiter.lastServed⟩))
    ∧ ((s.arbiter.burst ≠ none ∨ ∀ w, s.waiting w = none) → Ignored .burstGrant s))
  ∧ (∀ s : State,
    let ring (offset : Nat) : Nat := 160 * 1048576 + offset % 67108864
    let cut (start done left : Nat) : Nat := min (256 - done % 256) (min left (67108864 - (start + done) % 67108864))
    let write (bytes : List (BitVec 8)) : BurstOp := .write (bytes.map fun v => ⟨0, v⟩)
    (s.waiting .fetch = s.engine.read.map fun r =>
      ⟨.fetch, r.addr + r.got.length, .read (min 256 (r.total - r.got.length)), false⟩)
    ∧ (∀ seg payload w, s.feed.intake = .assembling seg → seg.writing = some (payload, w) → w < payload.length →
      let start := seg.ringOffset + seg.received
      s.waiting .intake =
        some ⟨.intake, ring (start + w), write ((payload.drop w).take (cut start w (payload.length - w))), false⟩)
    ∧ ((∀ seg payload w, s.feed.intake = .assembling seg → seg.writing = some (payload, w) → payload.length ≤ w) →
      s.waiting .intake = none)
    ∧ (s.decoder = none → s.waiting .decoder = none)
    ∧ (∀ d, s.decoder = some d →
      (d.transfer.cells ≠ [] →
        s.waiting .decoder = some ⟨.decoder, d.transfer.addr, .write (d.transfer.cells.take 256), false⟩)
      ∧ (d.transfer.cells = [] →
        let n := d.readPos + d.ahead.length
        let declared := d.work.entry.header.declared
        let start := d.work.entry.ringOffset
        (d.phase = .code → n < declared →
          s.waiting .decoder = some ⟨.decoder, ring (start + n), .read (cut start n (declared - n)), false⟩)
        ∧ ((d.phase ≠ .code ∨ declared ≤ n) → s.waiting .decoder = none)))
    ∧ (s.screener = none → s.waiting .screener = none)
    ∧ (∀ d, s.screener = some d →
      let h := d.work.entry.header
      (d.transfer.cells ≠ [] →
        s.waiting .screener = some ⟨.screener, d.transfer.addr, .write (d.transfer.cells.take 256), false⟩)
      ∧ (d.transfer.cells = [] →
        (∀ row got, d.phase = .readRow row got →
          let start := d.work.entry.ringOffset + row * h.sw
          s.waiting .screener =
            some ⟨.screener, ring (start + got.length), .read (cut start got.length (h.sw - got.length)), false⟩)
        ∧ (∀ laid p, d.phase = .pixels laid → s.readySet h.screen = some p →
          let x := h.x0 + laid.length
          let y := 256 * h.band + h.y0 + d.lineCount
          let entry := cellCoord x y p.vx p.vy p.cell * p.cell + cellCoord x y p.ux p.uy p.cell
          s.waiting .screener =
            some ⟨.screener, 224 * 1048576 + 32768 * h.screen + 2 * entry, .read 2, false⟩)
        ∧ ((d.phase = .ended ∨ ∃ line, d.phase = .fill line) → s.waiting .screener = none)))
    ∧ (s.link.job = none → s.waiting .screenTable = none)
    ∧ ∀ j, s.link.job = some j →
      (j.written < j.bytes.length →
        s.waiting .screenTable = some ⟨.screenTable, 224 * 1048576 + 32768 * j.set + 2 * j.first + j.written,
          write ((j.bytes.drop j.written).take 256), false⟩)
      ∧ (j.bytes.length ≤ j.written → s.waiting .screenTable = none))
  ∧ ∀ (s : State) (who : Requester) (b : Burst), s.waiting who = some b → b.op.length ≤ 256

/-- BURST_DONE (R164, R166): a burst inside plate memory is carried out and the arbiter is FREE. A read changes no byte; a
write changes exactly the bytes it covers, each as its cell says: replaced, or the kept bits kept and the painted ones set
(R70). And the cells a renderer writes for rectangle line `y`: from the byte of pixel x0 in its buffer line on, the pixels of
the line below the plate's width, the leftmost in the most significant bit (R69); REPLACE sets each, OVERPRINT keeps what was
ink; a pixel not painted is kept, and a line past the band's height has no cell (R70, R71, R96). -/
def Obligations.BurstDone : Prop :=
  (∀ (s : State) (b : Burst), s.pins.resetAsserted = false → s.arbiter.burst = some b →
    (∀ n, b.op = .read n → b.addr + n ≤ 268435456 → ∃ t, exec .burstDone s = .next t
      ∧ t.arbiter = { s.arbiter with burst := none } ∧ t.memory = s.memory)
    ∧ ∀ cells, b.op = .write cells → b.addr + cells.length ≤ 268435456 → s.memory.wf = true → ∃ t,
      exec .burstDone s = .next t ∧ t.arbiter = { s.arbiter with burst := none } ∧ t.memory.epoch = s.memory.epoch
        ∧ (∀ a, a < b.addr ∨ b.addr + cells.length ≤ a → t.memory.read a = s.memory.read a)
        ∧ ∀ i c, cells[i]? = some c →
          t.memory.read (b.addr + i) = (s.memory.read (b.addr + i) &&& c.keep) ||| c.put)
  ∧ ∀ (k : Work) (mode : PaintMode) (y : Nat) (line : List Bool),
    let h := k.entry.header
    let transfer := k.lineTransfer mode y line
    let visible := min line.length (k.width - h.x0)
    (k.bandHeight ≤ h.y0 + y → transfer.cells = [])
    ∧ (h.y0 + y < k.bandHeight →
      transfer.addr = k.buffer * 1048576 + 4096 * (h.y0 + y) + h.x0 / 8
        ∧ transfer.cells.length = (if visible = 0 then 0 else (h.x0 % 8 + visible + 7) / 8)
        ∧ ∀ (i j : Nat) (c : MaskedByte), j < 8 → transfer.cells[i]? = some c →
          let x := 8 * (h.x0 / 8 + i) + j
          (h.x0 ≤ x → x < h.x0 + visible →
            c.put.getLsbD (7 - j) = line.getD (x - h.x0) false ∧ c.keep.getLsbD (7 - j) = decide (mode = .overprint))
          ∧ ((x < h.x0 ∨ h.x0 + visible ≤ x) → c.put.getLsbD (7 - j) = false ∧ c.keep.getLsbD (7 - j) = true))

/-- What the end of a burst does for its requester (R31, R110, R115, R122, R165), tied to BURST_DONE: the fetch, the intake
writer, the decoder, the screener or the SCREEN TABLE goes on with the bytes read or written; a burst whose intake writer gave
its frame up changes nothing else (R170). The fetch's line joins the FIFO with its last byte, unless it was dropped or
discarded; the intake's DATA frame counts and leaves the frame buffer with its last byte. That a line and a frame count with
their last byte is the model's reading (log 15). A line produced or dropped ends its band's fetch where it is the band's last
(R7, R113) and the copy's fetch where it is line 4N - 1 (R110); a line of a copy the engine no longer works on ends nothing
(the model's reading: log 36). -/
def Obligations.BurstServesRequester : Prop :=
  (∀ (s : State) (b : Burst), s.pins.resetAsserted = false → s.arbiter.burst = some b →
    let free := s.withArbiter { s.arbiter with burst := none }
    (∀ n, b.op = .read n → b.addr + n ≤ 268435456 →
      let bytes := (List.range n).map fun i => s.memory.read (b.addr + i)
      (b.who = .fetch → Answers .burstDone s (free.fetchBurstDone bytes))
      ∧ (b.who = .decoder → ∀ d, s.decoder = some d →
        Answers .burstDone s (free.stepDecoder d ({ d with ahead := d.ahead ++ bytes } : Decode).advance))
      ∧ (b.who = .screener → ∀ d, s.screener = some d →
        Answers .burstDone s
          (free.withScreener (some (d.burstDone (s.readySet d.work.entry.header.screen) (.read n) bytes)))))
    ∧ ∀ cells, b.op = .write cells → b.addr + cells.length ≤ 268435456 →
      let written := free.withMemory (s.memory.writeRun b.addr cells)
      (b.who = .intake → b.stale = true → Answers .burstDone s written)
      ∧ (b.who = .intake → b.stale = false → Answers .burstDone s (written.intakeBurstDone cells.length))
      ∧ (b.who = .decoder → ∀ d, s.decoder = some d →
        let rest : Transfer := ⟨d.transfer.addr + cells.length, d.transfer.cells.drop cells.length⟩
        Answers .burstDone s (written.stepDecoder d ({ d with transfer := rest } : Decode).advance))
      ∧ (b.who = .screener → ∀ d, s.screener = some d →
        Answers .burstDone s
          (written.withScreener (some (d.burstDone (s.readySet d.work.entry.header.screen) (.write cells) []))))
      ∧ (b.who = .screenTable → Answers .burstDone s (written.tableBurstDone cells.length)))
  ∧ (∀ (s : State) (r : FetchRead) (bytes : List (BitVec 8)), s.engine.read = some r →
    (r.got.length + bytes.length < r.total →
      s.fetchBurstDone bytes = s.withEngine { s.engine with read := some { r with got := r.got ++ bytes } })
    ∧ (r.total ≤ r.got.length + bytes.length →
      s.fetchBurstDone bytes =
        match r.fate with
        | .join =>
          let joined : Engine := { s.engine with read := none, fifo := s.engine.fifo ++ [⟨r.line, r.got ++ bytes⟩] }
          (s.withEngine joined.testUrgency).passLine r.plate r.copy r.line
        | .drop => (s.withEngine { s.engine with read := none }).passLine r.plate r.copy r.line
        | .discard => s.withEngine { s.engine with read := none }))
  ∧ (∀ (s : State) (plate copy line : Nat),
    (s.engine.taken ≠ some ⟨plate, copy⟩ → s.passLine plate copy line = s)
    ∧ ∀ p, s.engine.taken = some ⟨plate, copy⟩ → s.plate? plate = some p →
      let final := ¬copy < p.copies
      let ended (b : Band) : Band :=
        if b.state = .exposing then
          (if final then { b with state := .exposed, buffer := none } else { b with state := .ready })
        else b
      let band := p.bands[line / 256]?
      let s1 :=
        if line < p.height ∧ p.lastLine (line / 256) = line ∧ band ≠ none then
          (s.modBand plate (line / 256) ended).withPool ⟨s.pool.free ++
            (match band with
              | some b => if b.state = .exposing ∧ final then b.buffer.toList else []
              | none => [])⟩
        else s
      s.passLine plate copy line =
        if line + 1 = 4 * ((p.height + 3) / 4) then s1.withEngine { s.engine with running := false, urgent := false } else s1)
  ∧ (∀ (s : State) (seg : OpenSegment) (payload : List (BitVec 8)) (w n : Nat),
    s.feed.intake = .assembling seg → seg.writing = some (payload, w) →
    (w + n < payload.length →
      s.intakeBurstDone n = s.withFeed { s.feed with intake := .assembling { seg with writing := some (payload, w + n) } })
    ∧ (payload.length ≤ w + n →
      s.intakeBurstDone n = (s.withFeed { s.feed with
        buffer := s.feed.buffer.drop 1
        intake := .assembling { seg with
          received := seg.received + payload.length, check := crc32Feed seg.check payload,
          writing := none } }).testHold))
  ∧ ∀ (d : Screen) (set : Option ScreenParams),
    let h := d.work.entry.header
    (∀ (cells : List MaskedByte) (bytes : List (BitVec 8)),
      (cells.length < d.transfer.cells.length
        ∨ 1 ≤ h.w ∧ 1 ≤ h.sw ∧ (d.phase = .ended ∨ d.phase = .pixels [] ∨ ∃ row, d.phase = .readRow row [])) →
      d.burstDone set (.write cells) bytes =
        { d with transfer := ⟨d.transfer.addr + cells.length, d.transfer.cells.drop cells.length⟩ })
    ∧ (d.transfer.cells = [] → 1 ≤ h.w → 1 ≤ h.sw → ∀ (n : Nat) (bytes : List (BitVec 8)),
      (∀ row got, d.phase = .readRow row got →
        d.burstDone set (.read n) bytes =
          if got.length + bytes.length < h.sw then { d with phase := .readRow row (got ++ bytes) }
          else { d with row := some (row, got ++ bytes), phase := .pixels [] })
      ∧ ∀ laid row samples p, d.phase = .pixels laid → d.row = some (row, samples) → set = some p →
        let tone := (samples.getD (sourceIndex laid.length h.w h.sw) 0).toNat
        let line := laid ++ [screenInk p.curve tone (decBE bytes)]
        let next : Screen :=
          { d with lineCount := d.lineCount + 1, transfer := d.work.lineTransfer h.mode d.lineCount line }
        d.burstDone set (.read n) bytes =
          if line.length < h.w then { d with phase := .pixels line }
          else if h.h ≤ d.lineCount + 1 then { next with phase := .ended }
          else if sourceIndex (d.lineCount + 1) h.h h.sh = row then { next with phase := .pixels [] }
          else { next with phase := .readRow (sourceIndex (d.lineCount + 1) h.h h.sh) [] })

/-! ### Exposure -/

/-- PLATE EXPOSE (R101) and the taking of the head plate (R100): the replies, that for another body length first (the model's
choice: log 39); a LOADING plate is authorised; and an IDLE engine takes the head plate where it is LOADING and authorised. A
scan running as the engine leaves IDLE is abandoned: the activity IDLE, no step, and MEASURE ABANDONED posted with reason
EXPOSURE and the beam of the step in progress (R144). The lead (R109): in WAIT_LEAD, once the first bands of the plate taken are
settled, the engine enters WAIT_DRUM and its fetch starts; the newest stored DRUM record, where it is of this copy, gets a mark
request (R155). -/
def Obligations.PlateExpose : Prop :=
  (∀ (s : State) (m : Message) (rest : List Message), s.Heads m rest → m.kind = 0x09 →
    (m.body.length ≠ 2 → Answers .plateExpose s (s.replied m.tag rest .badArg []))
    ∧ (m.body.length = 2 →
      (s.plate? (field m.body 0 2) = none → Answers .plateExpose s (s.replied m.tag rest .notFound []))
      ∧ ∀ p, s.plate? (field m.body 0 2) = some p →
        (p.state ≠ .loading → Answers .plateExpose s (s.replied m.tag rest .state []))
        ∧ (p.state = .loading →
          Answers .plateExpose s
            (((s.modPlate p.id fun x => { x with authorised := true }).takeHead).replied m.tag rest .ok []))))
  ∧ (∀ s : State,
    ((s.engine.state ≠ .idle ∨ ∀ p, s.table.queue.head?.bind s.plate? = some p →
        p.state ≠ .loading ∨ p.authorised = false) → s.takeHead = s)
    ∧ ∀ p, s.engine.state = .idle → s.table.queue.head?.bind s.plate? = some p → p.state = .loading →
      p.authorised = true →
      s.takeHead.engine.taken = some ⟨p.id, p.completed + 1⟩
        ∧ s.takeHead.engine.state = (if p.leadSettled then .waitDrum else .waitLead)
        ∧ s.takeHead.engine.running = p.leadSettled ∧ s.takeHead.engine.urgent = p.leadSettled
        ∧ s.takeHead.engine.fetchPos = 0 ∧ s.takeHead.engine.fifo = [] ∧ s.takeHead.engine.swath = 0
        ∧ s.takeHead.engine.edgeSeen = false ∧ s.takeHead.engine.watchdog = none
        ∧ s.takeHead.engine.read = s.engine.read ∧ s.takeHead.engine.active = s.engine.active
        ∧ s.takeHead.table = { s.table with
            plates := s.table.plates.map fun x => if x.id = p.id then { x with state := .active } else x }
        ∧ s.takeHead.pool = s.pool ∧ s.takeHead.segs = s.segs ∧ s.takeHead.feed = s.feed
        ∧ (let taken := (s.withTable { s.table with
              plates := s.table.plates.map fun x => if x.id = p.id then { x with state := .active } else x }).withEngine
            { s.engine with
              state := .waitLead, taken := some ⟨p.id, p.completed + 1⟩, fetchPos := 0, running := false, urgent := false
              fifo := [], swath := 0, edgeSeen := false, watchdog := none }
          let beam : Option (Fin 4) := match s.monitor.step with | .beam k => some k | .none | .ref => none
          let abandoned := (taken.withMonitor { s.monitor with activity := .idle, step := .none }).post
            (.measureAbandoned true beam)
          ((s.monitor.activity = .scanSingle ∨ s.monitor.activity = .scanContinuous) →
            s.takeHead = abandoned.settleLead
              ∧ s.takeHead.monitor = { s.monitor with activity := .idle, step := .none }
              ∧ s.takeHead.link = (s.post (.measureAbandoned true beam)).link)
          ∧ ((s.monitor.activity = .idle ∨ s.monitor.activity = .exposure) →
            s.takeHead = taken.settleLead ∧ s.takeHead.monitor = s.monitor ∧ s.takeHead.link = s.link)))
  ∧ ∀ s : State,
    ((s.engine.state ≠ .waitLead ∨ ∀ t p, s.engine.taken = some t → s.plate? t.plate = some p →
        ∃ b ∈ p.bands.take p.lead, b.state ≠ .ready ∧ b.state ≠ .blank ∧ b.state ≠ .starved) → s.settleLead = s)
    ∧ ∀ t p, s.engine.state = .waitLead → s.engine.taken = some t → s.plate? t.plate = some p →
      (∀ b ∈ p.bands.take p.lead, b.state = .ready ∨ b.state = .blank ∨ b.state = .starved) →
      let started : Engine := { s.engine with state := .waitDrum, fetchPos := 0, running := true }
      (∀ before r after, p.damage = before ++ r :: after → r.cause = .drum → (∀ x ∈ after, x.cause ≠ .drum) →
        s.settleLead =
          (if r.copy = t.copy then s.requestMark .drum (4 * (r.first / 4)) (some before.length) else s).withEngine
            started.testUrgency)
      ∧ ((∀ r ∈ p.damage, r.cause ≠ .drum) → s.settleLead = s.withEngine started.testUrgency)

/-- EXPOSE SETUP (R103): refused with BADARG where a field is out of its range; otherwise stored, D above 24 as 24, as the
active setup in IDLE and as the pending one in any other state; the reply tells which, the D stored, and the clamp. -/
def Obligations.ExposeSetup : Prop :=
  ∀ (s : State) (m : Message) (rest : List Message), s.Heads m rest → m.kind = 0x0A →
    (m.body.length ≠ 34 → Answers .exposeSetup s (s.replied m.tag rest .badArg []))
    ∧ (m.body.length = 34 →
      let d := field m.body 0 1
      let timeout := field m.body 1 2
      let x := field m.body 3 2
      let pattern (i : Nat) := field m.body (5 + i) 1
      let gate := field m.body 13 2
      let interval := field m.body 15 2
      let set := field m.body 17 1
      let lo (k : Nat) := field m.body (18 + 4 * k) 2
      let hi (k : Nat) := field m.body (20 + 4 * k) 2
      let bad := d < 4 ∨ timeout = 0 ∨ 10000 < timeout ∨ 32704 < x ∨ (∃ i < 8, 31 < pattern i ∧ pattern i ≠ 255)
        ∨ gate < 1024 ∨ interval < 16 ∨ 1024 < interval ∨ 15 < set ∨ ∃ k < 4, hi k < lo k
      let u : Setup :=
        { demand := min d 24
          timeout := timeout
          laneX := x
          patterns := (List.range 8).map fun i => if pattern i = 255 then none else some (pattern i)
          gate := gate
          interval := interval
          beams := BitVec.ofNat 4 set
          windows := ⟨⟨lo 0, hi 0⟩, ⟨lo 1, hi 1⟩, ⟨lo 2, hi 2⟩, ⟨lo 3, hi 3⟩⟩ }
      (bad → Answers .exposeSetup s (s.replied m.tag rest .badArg []))
      ∧ (¬bad → s.engine.state = .idle →
        Answers .exposeSetup s ((s.withEngine { s.engine with active := u }).replied m.tag rest .ok
          [0, byteOf (min d 24), if 24 < d then 1 else 0]))
      ∧ (¬bad → s.engine.state ≠ .idle →
        Answers .exposeSetup s ((s.withEngine { s.engine with waiting := some u }).replied m.tag rest .ok
          [1, byteOf (min d 24), if 24 < d then 1 else 0])))

/-- FETCH_LINE_BEGIN (R110): the fetch position moves past the line, the band decision is made at a band's first line, and the
line is then read from its EXPOSING band's buffer, or joins the FIFO white at once: a line of a band that is not EXPOSING or
has no buffer, and a line past the plate's height. The band decision (R7, R112, R155): a READY band becomes EXPOSING, with a
mark request where it has render damage; a band EMPTY or FILLING starves, with its STARVED record and mark request, its buffer
given back unless a render is in progress, its segments ended, its discarded entries counted late and told in BAND LATE
(R56, R58); a band already STARVED gets a mark request; a BLANK band stands, and so does one EXPOSING or EXPOSED, by the
model's choice (log 28). And the fetch's urgency (R111). -/
def Obligations.FetchLineBegin : Prop :=
  (∀ (s : State) (t : Taken) (p : Plate), s.pins.resetAsserted = false → s.engine.taken = some t →
    s.plate? t.plate = some p → s.engine.running = true → s.engine.read = none → s.engine.fifo.length < 32 →
    let l := s.engine.fetchPos
    l < 4 * ((p.height + 3) / 4) →
    let white : FifoLine := ⟨l, List.replicate (p.width / 8) 0⟩
    (∃ u, exec .fetchLineBegin s = .next u ∧ u.engine.fetchPos = l + 1 ∧ u.engine.taken = s.engine.taken
      ∧ u.engine.swath = s.engine.swath ∧ u.memory = s.memory ∧ u.monitor = s.monitor ∧ u.stamps = s.stamps
      ∧ (p.height ≤ l → u.engine.read = none ∧ u.engine.fifo = s.engine.fifo ++ [white])
      ∧ (∀ b n, l < p.height → p.bands[l / 256]? = some b → b.buffer = some n →
        (b.state = .exposing ∨ b.state = .ready ∧ l % 256 = 0) →
        u.engine.read = some ⟨t.plate, t.copy, l, n * 1048576 + 4096 * (l % 256), p.width / 8, [], .join⟩
          ∧ u.engine.fifo = s.engine.fifo ∧ u.pool = s.pool
          ∧ u.band? t.plate (l / 256) = some { b with state := .exposing })
      ∧ (∀ b, l < p.height → p.bands[l / 256]? = some b → (b.state = .blank ∨ b.state = .starved) →
        u.engine.read = none ∧ u.engine.fifo = s.engine.fifo ++ [white] ∧ u.pool = s.pool
          ∧ u.band? t.plate (l / 256) = some b)
      ∧ ∀ b, l < p.height → l % 256 = 0 → p.bands[l / 256]? = some b → (b.state = .empty ∨ b.state = .filling) →
        u.engine.read = none ∧ u.engine.fifo = s.engine.fifo ++ [white]
          ∧ u.pool.free = s.pool.free ++ (if b.rendering then [] else b.buffer.toList)
          ∧ u.band? t.plate (l / 256) = some { b with
              state := .starved, buffer := if b.rendering then b.buffer else none }
          ∧ ∀ e ∈ u.segs.queue, e.linked = true → e.header.plate = t.plate → e.header.band = l / 256 → e.state ≠ .queued)
    ∧ let moved := s.withEngine { s.engine with fetchPos := l + 1 }
      let decided := if l < p.height ∧ l % 256 = 0 then moved.decideBand (l / 256) else moved
      (∀ b n, l < p.height → decided.band? t.plate (l / 256) = some b → b.state = .exposing → b.buffer = some n →
        Answers .fetchLineBegin s (decided.withEngine { decided.engine with
          read := some ⟨t.plate, t.copy, l, n * 1048576 + 4096 * (l % 256), p.width / 8, [], .join⟩ }))
      ∧ ((l < p.height → ∀ b, decided.band? t.plate (l / 256) = some b → b.state ≠ .exposing ∨ b.buffer = none) →
        let joined : Engine := { decided.engine with fifo := decided.engine.fifo ++ [white] }
        Answers .fetchLineBegin s ((decided.withEngine joined.testUrgency).passLine t.plate t.copy l)))
  ∧ (∀ (s : State) (t : Taken) (p : Plate) (b : Nat) (x : Band), s.engine.taken = some t → s.plate? t.plate = some p →
    p.bands[b]? = some x →
    let exposing := s.modBand p.id b fun x => { x with state := .exposing }
    let damaged (r : DamageRecord) : Prop := (r.cause = .code ∨ r.cause = .content) ∧ r.band = b
    let starved (r : DamageRecord) : Prop := r.cause = .starved ∧ r.band = b
    ((x.state = .blank ∨ x.state = .exposing ∨ x.state = .exposed) → s.decideBand b = s)
    ∧ (x.state = .ready →
      (x.damaged = false → s.decideBand b = exposing)
      ∧ (x.damaged = true →
        (∀ before r after, p.damage = before ++ r :: after → damaged r → (∀ y ∈ before, ¬damaged y) →
          s.decideBand b = exposing.requestMark r.cause (256 * b) (some before.length))
        ∧ ((∀ r ∈ p.damage, ¬damaged r) → s.decideBand b = exposing.requestMark .code (256 * b) none)))
    ∧ (x.state = .starved →
      (∀ before r after, p.damage = before ++ r :: after → starved r → (∀ y ∈ before, ¬starved y) →
        s.decideBand b = s.requestMark .starved (256 * b) (some before.length))
      ∧ ((∀ r ∈ p.damage, ¬starved r) → s.decideBand b = s.requestMark .starved (256 * b) none))
    ∧ ((x.state = .empty ∨ x.state = .filling) →
      let u := s.decideBand b
      let which (h : Header) : Bool := decide (h.plate = p.id) && decide (h.band = b)
      let n := (s.ending which).length
      let record : DamageRecord := ⟨.starved, t.copy, b, 256 * b, p.lastLine b, none, none, none, none, none⟩
      let stored := p.damage.length < 64
      let s1 := if stored then s.post (.damage p.id p.damage.length record) else s
      let s2 := if n = 0 then s1 else s1.post (.bandLate p.id b n t.copy)
      u.plate? p.id = some { p with
          bands := p.bands.modify b fun _ =>
            { x with state := .starved, buffer := if x.rendering then x.buffer else none }
          damage := if stored then p.damage ++ [record] else p.damage
          overflow := if stored then p.overflow else min (p.overflow + 1) 65535
          late := min (p.late + n) 65535 }
        ∧ u.pool.free = s.pool.free ++ (if x.rendering then [] else x.buffer.toList)
        ∧ SegmentsEnd s u which
        ∧ u.link = (s2.tellInterrupted which).link
        ∧ u.marks = (s.requestMark .starved (256 * b) (if stored then some p.damage.length else none)).marks
        ∧ u.table.queue = s.table.queue ∧ u.engine = s.engine ∧ u.monitor = s.monitor ∧ u.pins = s.pins
        ∧ u.feed.counters = s.feed.counters ∧ u.memory = s.memory))
  ∧ ∀ e : Engine, e.testUrgency = { e with
      urgent := e.running
        && (decide (e.fifo.length ≤ e.active.demand) || e.urgent && decide (e.fifo.length < e.active.demand + 8)) }

/-- INDEX (R105, R106, R116 to R118): what it does in each engine state. In LEAD_IN a step still running ends as a TIMEOUT
(R134), the engine enters EXPOSING and the gap's step begins (R135). In EXPOSING, IMAGE EDGE seen, it begins a revolution, or
ends the copy once every swath is exposed: the laser is off, the episodes closed (R140), the marks unit emptied (R159), the
copy counted and told; and CHANGE prepares the next copy, or the plate is DONE, told, out of the queue, and the engine IDLE.
A band still EXPOSING then ends its fetch, and a read still completing is discarded (the model's reading: log 36). -/
def Obligations.IndexTaken : Prop :=
  ∀ (ticks pulses : BitVec 24) (s : State), s.pins.resetAsserted = false →
    ((s.engine.state = .idle ∨ s.engine.state = .waitLead ∨ s.engine.state = .waitDrum ∧ s.pins.drumReady = false
        ∨ s.engine.state = .change .awaitFall ∨ s.engine.state = .change .awaitRise) →
      Answers (.index ticks pulses) s s)
    ∧ ((s.engine.state = .waitDrum ∧ s.pins.drumReady = true ∨ s.engine.state = .change .awaitIndex) →
      Answers (.index ticks pulses) s
        ((s.withEngine { s.engine with
            state := .leadIn, swath := 0, edgeSeen := false, watchdog := some s.engine.active.timeout }).withMonitor
          { s.monitor with
            activity := .exposure, step := .ref, stepSwath := 0, stepGate := s.engine.active.gate, gateCounter := 0,
            pulseCounter := 0, reference := .none, revolutions := 0, cursor := none, previous := ⟨0, 0, 0, 0⟩,
            power := ⟨.closed, .closed, .closed, .closed⟩, blind := .closed }))
    ∧ (s.engine.state = .leadIn →
      let t := ((s.cutStep ticks.toNat pulses.toNat).withEngine { s.engine with
        state := .exposing, edgeSeen := false, watchdog := some s.engine.active.timeout }).openGap
      Answers (.index ticks pulses) s t
        ∧ t.engine = { s.engine with
            state := .exposing, edgeSeen := false, watchdog := some s.engine.active.timeout }
        ∧ t.pins = s.pins ∧ t.pool = s.pool ∧ t.segs = s.segs ∧ t.memory = s.memory)
    ∧ ∀ k p, s.engine.state = .exposing → s.engine.taken = some k → s.plate? k.plate = some p →
      (s.engine.edgeSeen = true → s.engine.swath < (p.height + 3) / 4 →
        Answers (.index ticks pulses) s
          (((s.withPins { s.pins with laser := none }).withEngine
            { s.engine with edgeSeen := false, watchdog := some s.engine.active.timeout }).openGap))
      ∧ (s.engine.edgeSeen = true → (p.height + 3) / 4 ≤ s.engine.swath →
        let told := s.post (.copyDone p.id k.copy p.copies p.damage.length p.overflow)
        (p.completed + 1 < p.copies → ∃ u : State, Answers (.index ticks pulses) s u
          ∧ u.engine = { s.engine with
              state := .change .awaitFall, taken := some ⟨k.plate, k.copy + 1⟩, swath := 0, edgeSeen := false, fetchPos := 0
              running := true, urgent := true, fifo := [], watchdog := none
              read := s.engine.read.map fun r => { r with fate := .discard } }
          ∧ u.monitor = { s.monitor with
              activity := .idle, step := .none, power := ⟨.closed, .closed, .closed, .closed⟩, blind := .closed }
          ∧ u.marks = ⟨[], none, none, none⟩ ∧ u.pins = { s.pins with laser := none } ∧ u.link = told.link
          ∧ u.plate? p.id = (s.closeEpisodes.plate? p.id).map (fun x => { x with
              completed := p.completed + 1
              bands := p.bands.map fun b => if b.state = .exposing then { b with state := .ready } else b })
          ∧ u.table.queue = s.table.queue ∧ u.pool = s.pool ∧ u.segs = s.segs ∧ u.memory = s.memory)
        ∧ (p.copies ≤ p.completed + 1 → ∃ u : State, Answers (.index ticks pulses) s u.takeHead
          ∧ EngineStops s u
          ∧ u.link = (told.post (.plateDone p.id (p.completed + 1) p.damage.length p.overflow)).link
          ∧ u.plate? p.id = (s.closeEpisodes.plate? p.id).map (fun x => { x with
              state := .done, completed := p.completed + 1
              bands := p.bands.map fun b =>
                if b.state = .exposing then { b with state := .exposed, buffer := none } else b })
          ∧ u.table.queue = s.table.queue.filter (fun q => decide (q ≠ p.id))
          ∧ u.pool.free = s.pool.free ++ p.bands.filterMap (fun b => if b.state = .exposing then b.buffer else none)
          ∧ u.segs = s.segs ∧ u.memory = s.memory))

/-- IMAGE EDGE (R105, R106, R114, R115, R134): a second one in a revolution, and one in a state that exposes nothing, changes
nothing; in LEAD_IN it sets edge seen and a step still running ends as a TIMEOUT. In EXPOSING the swath due is handed to the
damage and marks unit: the FIFO's first four lines where they are its lines, otherwise four white ones as an underrun, whose
lines are dropped while the fetch skips past them (every band on the way is decided and ended as by the fetch); the swath
counter rises by 1. The model's readings: edge seen becomes yes in LEAD_IN too (log 25), and in EXPOSING a step still running
ends as a TIMEOUT after the swath (log 35). -/
def Obligations.ImageEdge : Prop :=
  ∀ (ticks pulses : BitVec 24) (s : State), s.pins.resetAsserted = false →
    ((s.engine.edgeSeen = true ∨ (s.engine.state ≠ .leadIn ∧ s.engine.state ≠ .exposing)) →
      Answers (.imageEdge ticks pulses) s s)
    ∧ (s.engine.edgeSeen = false → s.engine.state = .leadIn →
      Answers (.imageEdge ticks pulses) s
        ((s.withEngine { s.engine with edgeSeen := true }).cutStep ticks.toNat pulses.toNat))
    ∧ ((s.monitor.step = .none → s.cutStep ticks.toNat pulses.toNat = s)
      ∧ (s.monitor.step = .ref → s.cutStep ticks.toNat pulses.toNat = s.endRef .timeout ticks.toNat pulses.toNat)
      ∧ ∀ k, s.monitor.step = .beam k →
        s.cutStep ticks.toNat pulses.toNat = s.endBeam k ticks.toNat pulses.toNat none)
    ∧ ∀ k p, s.engine.edgeSeen = false → s.engine.state = .exposing → s.engine.taken = some k →
      s.plate? k.plate = some p →
      let sw := s.engine.swath
      let due := (s.engine.fifo.take 4).map FifoLine.line = [4 * sw, 4 * sw + 1, 4 * sw + 2, 4 * sw + 3]
      let next (u : State) : State :=
        (u.withEngine { u.engine with swath := sw + 1 }).cutStep ticks.toNat pulses.toNat
      let after (t : State) : Prop :=
        t.engine.swath = sw + 1 ∧ t.engine.edgeSeen = true ∧ t.engine.state = .exposing ∧ t.engine.taken = some k
          ∧ t.engine.watchdog = s.engine.watchdog ∧ (s.monitor.activity = .exposure → t.monitor.step = .none)
          ∧ t.memory = s.memory ∧ t.stamps = s.stamps
      (due →
        let left : Engine := { s.engine with edgeSeen := true, fifo := s.engine.fifo.drop 4 }
        let u := (s.withEngine left.testUrgency).handSwath k p sw false ((s.engine.fifo.take 4).map FifoLine.bytes)
        Answers (.imageEdge ticks pulses) s (next u) ∧ after (next u)
          ∧ (next u).engine.fifo = s.engine.fifo.drop 4 ∧ (next u).engine.fetchPos = s.engine.fetchPos
          ∧ (next u).pins.laser = u.pins.laser ∧ (next u).pool = s.pool)
      ∧ (¬due →
        let inSwath (l : Nat) : Prop := 4 * sw ≤ l ∧ l ≤ 4 * sw + 3
        let dropped := s.withEngine { s.engine with
          edgeSeen := true
          fifo := s.engine.fifo.filter fun l => decide (¬inSwath l.line)
          read := s.engine.read.map fun r => if inSwath r.line ∧ r.fate = .join then { r with fate := .drop } else r }
        let pos := s.engine.fetchPos
        let pass (x : State) (l : Nat) : State :=
          (if l % 256 = 0 ∧ l < p.height then x.decideBand (l / 256) else x).passLine k.plate k.copy l
        let skipped :=
          if pos ≤ 4 * sw + 3 then
            (List.range' pos (4 * sw + 4 - pos)).foldl pass
              (dropped.withEngine { dropped.engine with fetchPos := 4 * sw + 4 })
          else dropped
        let tested := skipped.withEngine skipped.engine.testUrgency
        ∃ q, tested.plate? k.plate = some q ∧ q.height = p.height ∧ q.width = p.width ∧ q.stamps = p.stamps
          ∧ let u := tested.handSwath k q sw true (List.replicate 4 (List.replicate (p.width / 8) 0))
            Answers (.imageEdge ticks pulses) s (next u) ∧ after (next u)
              ∧ (next u).engine.fifo = dropped.engine.fifo
              ∧ (next u).engine.fetchPos = max s.engine.fetchPos (4 * sw + 4)
              ∧ (next u).pins.laser = u.pins.laser)

/-- Drum faults (R121 to R125) and the changes of DRUM READY (R117): a watchdog expiry or a fall of DRUM READY in LEAD_IN or
EXPOSING, and an INDEX in EXPOSING with edge seen no, stop the engine, make the DRUM record, post DRUM FAULT with its cause, and
return the plate to LOADING, or take it to FAULTED in its final copy; the engine is IDLE and takes the head plate if it may.
As the engine stops every open episode closes, its record extended to the last line of the last swath exposed (R140). In CHANGE
a fall and a rise move the change phase; elsewhere they are ignored. -/
def Obligations.DrumFaults : Prop :=
  (∀ (s : State) (c : Instr) (k : Taken) (p : Plate), s.pins.resetAsserted = false → s.engine.taken = some k →
    s.plate? k.plate = some p →
    ((s.engine.state = .leadIn ∨ s.engine.state = .exposing)
        ∧ (c = .drumReadyFall ∨ c = .indexWatchdogExpiry ∧ s.engine.watchdog ≠ none)
      ∨ s.engine.state = .exposing ∧ s.engine.edgeSeen = false ∧ ∃ a b, c = .index a b) →
    let final := k.copy = p.copies
    let cause : DrumCause :=
      if c = .drumReadyFall then .readyLost else if c = .indexWatchdogExpiry then .watchdog else .edgeMissing
    let first := min (4 * s.engine.swath) (p.height - 1)
    let record : DamageRecord := ⟨.drum, k.copy, first / 256, first, p.height - 1, none, none, none, none, none⟩
    let stored := p.damage.length < 64
    let told := (if stored then s.post (.damage p.id p.damage.length record) else s).post
      (.drumFault p.id k.copy s.engine.swath cause (decide final))
    ∃ u : State, Answers c s u.takeHead
      ∧ EngineStops (if c = .drumReadyFall then s.withPins { s.pins with drumReady := false } else s) u
      ∧ (u.plate? p.id).map Plate.damage
          = (s.closeEpisodes.plate? p.id).map (fun x => if stored then x.damage ++ [record] else x.damage)
      ∧ (u.plate? p.id).map Plate.overflow = some (if stored then p.overflow else min (p.overflow + 1) 65535)
      ∧ (¬final →
        (u.plate? p.id).map (fun x => { x with damage := p.damage, overflow := p.overflow }) = some { p with
            state := .loading, authorised := false
            bands := p.bands.map fun b => { b with state := if b.state = .exposing then .ready else b.state } }
          ∧ u.table.queue = s.table.queue ∧ u.pool = s.pool ∧ u.segs = s.segs ∧ u.screens = s.screens
          ∧ u.feed = s.feed ∧ u.link = told.link)
      ∧ (final → PlateEnds s u p .faulted 0 ∧ u.link = (told.tellInterrupted fun h => decide (h.plate = p.id)).link)
      ∧ u.feed.counters = s.feed.counters ∧ u.decoder = s.decoder ∧ u.screener = s.screener ∧ u.memory = s.memory
      ∧ u.stamps = s.stamps)
  ∧ (∀ (s : State) (k : Taken) (p : Plate), s.engine.taken = some k → s.plate? k.plate = some p →
    let linked (i : Nat) : Prop := (∃ beam : Fin 4, s.monitor.power.get beam = .opened (some i))
      ∨ s.monitor.blind = .opened (some i)
    ∃ q, s.closeEpisodes.plate? k.plate = some q ∧ { q with damage := p.damage } = p
      ∧ q.damage.length = p.damage.length
      ∧ ∀ i r, p.damage[i]? = some r →
        (linked i →
          q.damage[i]? = some { r with
            last := min (p.height - 1) (max r.last (4 * s.engine.swath - 1)), opened := some false })
        ∧ (¬linked i → q.damage[i]? = some r))
  ∧ ∀ s : State, s.pins.resetAsserted = false →
    let low := s.withPins { s.pins with drumReady := false }
    let high := s.withPins { s.pins with drumReady := true }
    ((s.engine.state = .change .awaitFall ∨ s.engine.state = .change .awaitIndex) →
      Answers .drumReadyFall s (low.withEngine { s.engine with state := .change .awaitRise }))
    ∧ ((s.engine.state = .idle ∨ s.engine.state = .waitLead ∨ s.engine.state = .waitDrum
        ∨ s.engine.state = .change .awaitRise) → Answers .drumReadyFall s low)
    ∧ (s.engine.state = .change .awaitRise →
      Answers .drumReadyRise s (high.withEngine { s.engine with state := .change .awaitIndex }))
    ∧ (s.engine.state ≠ .change .awaitRise → Answers .drumReadyRise s high)
    ∧ ((s.engine.watchdog = none ∨ (s.engine.state ≠ .leadIn ∧ s.engine.state ≠ .exposing)) →
      Ignored .indexWatchdogExpiry s)

/-! ### The exposure monitor -/

/-- The step of a clamp gap after the first of a copy (R135): REF where the reference is INVALID or the count of revolutions
reaches the interval, otherwise BEAM for the next enabled beam above the cursor, or the lowest; none where no beam is
enabled. -/
def Obligations.GapSchedule : Prop :=
  ∀ s : State,
    let begun (m : Monitor) (step : Step) (n : Nat) (cursor : Option (Fin 4)) : Monitor :=
      { m with
        step := step, stepSwath := s.engine.swath, stepGate := s.engine.active.gate, gateCounter := 0, pulseCounter := 0,
        revolutions := n, cursor := cursor }
    let n := s.monitor.revolutions + 1
    let above (j : Fin 4) : Prop := ∀ c, s.monitor.cursor = some c → c < j
    (s.monitor.reference = .invalid ∨ s.monitor.reference ≠ .invalid ∧ n = s.engine.active.interval →
      s.openGap = s.withMonitor (begun s.monitor .ref 0 s.monitor.cursor))
    ∧ (s.monitor.reference ≠ .invalid → n ≠ s.engine.active.interval →
      (s.engine.active.beams = 0 → s.openGap = s.withMonitor { s.monitor with revolutions := n })
      ∧ ∀ k : Fin 4, s.engine.active.beams.getLsbD k = true →
        ((above k ∧ ∀ j : Fin 4, s.engine.active.beams.getLsbD j = true → above j → k ≤ j)
          ∨ ∀ j : Fin 4, s.engine.active.beams.getLsbD j = true → ¬above j ∧ k ≤ j) →
        s.openGap = s.withMonitor (begun s.monitor (.beam k) n (some k)))

/-- A REF step's end (R129, R132, R137, R138, R141 to R144): REF_STEP_END gives VALID at 64 pulses and more and FAULT below,
and a step cut short gives TIMEOUT. The reading table and the reference take the outcome. In an exposure VALID closes the BLIND
episode, its record extended to the line before the step's swath; FAULT and TIMEOUT open it, with a BLIND record, its mark
request and REFERENCE FAULT, or extend its record. A scan goes on with its next step after VALID, and is otherwise abandoned
with reason REFERENCE. The next step of a scan is a BEAM step for the lowest beam of its set above the cursor; where there is
none, a CONTINUOUS scan begins its next pass with a REF step and a SINGLE one ends. That the cursor is none at that REF step, and
the step swath of a scan's step, are the model's reading (log 30). -/
def Obligations.RefStepEnd : Prop :=
  (∀ (pulses : BitVec 24) (s : State), s.pins.resetAsserted = false → s.monitor.step = .ref →
    Answers (.refStepEnd pulses) s
      (s.endRef (if 64 ≤ pulses.toNat then .valid else .fault) s.monitor.stepGate pulses.toNat))
  ∧ (∀ (s : State) (outcome : RefOutcome) (ticks n1 : Nat),
    let m := s.monitor
    let scanning := m.activity = .scanSingle ∨ m.activity = .scanContinuous
    let judged := s.withMonitor { m with
      step := .none, gateCounter := ticks, pulseCounter := n1
      refTable := some ⟨n1, m.stepGate, outcome, if m.activity = .exposure then .exposure else .scan⟩
      reference := if outcome = .valid then .valid n1 m.stepGate else .invalid }
    (scanning → outcome = .valid → s.endRef outcome ticks n1 = judged.scanNext)
    ∧ (scanning → outcome ≠ .valid →
      s.endRef outcome ticks n1 =
        (judged.withMonitor { judged.monitor with activity := .idle }).post (.measureAbandoned false none))
    ∧ (¬scanning → ∀ t p, s.engine.taken = some t → s.plate? t.plate = some p →
      (outcome = .valid → m.blind = .closed → s.endRef outcome ticks n1 = judged)
      ∧ (∀ link, outcome = .valid → m.blind = .opened link →
        s.endRef outcome ticks n1 =
          (judged.extendRecord p.id link (4 * m.stepSwath - 1) fun r => { r with opened := some false }).withMonitor
            { judged.monitor with blind := .closed })
      ∧ (∀ link, outcome ≠ .valid → m.blind = .opened link →
        s.endRef outcome ticks n1 = judged.extendRecord p.id link (4 * m.stepSwath + 3) fun r => r)
      ∧ (outcome ≠ .valid → m.blind = .closed →
        let line := 4 * m.stepSwath
        let record : DamageRecord := ⟨.blind, t.copy, line / 256, line, min (line + 3) (p.height - 1), some true, none, none,
          none, none⟩
        s.endRef outcome ticks n1 =
          ((judged.addMarked p.id record line).withMonitor { judged.monitor with
            blind := .opened (if p.damage.length < 64 then some p.damage.length else none) }).post
              (.referenceFault p.id t.copy m.stepSwath outcome n1 m.stepGate))))
  ∧ ∀ s : State,
    let begun (step : Step) (cursor : Option (Fin 4)) : State := s.withMonitor { s.monitor with
      step := step, stepSwath := s.engine.swath, stepGate := s.engine.active.gate, gateCounter := 0, pulseCounter := 0
      cursor := cursor }
    let above (k : Fin 4) : Prop := s.monitor.scanSet.getLsbD k = true ∧ ∀ c, s.monitor.cursor = some c → c < k
    (∀ k, above k → (∀ j, above j → k ≤ j) → s.scanNext = begun (.beam k) (some k))
    ∧ ((∀ k, ¬above k) → s.monitor.activity = .scanContinuous → s.scanNext = begun .ref none)
    ∧ ((∀ k, ¬above k) → s.monitor.activity ≠ .scanContinuous →
      s.scanNext = s.withMonitor { s.monitor with activity := .idle, step := .none })

/-- BEAM_STEP_PULSE_END and BEAM_STEP_GATE_TIMEOUT (R130 to R132): the power index min(65535, floor(4096·G/N2)), 65535 at an
N2 of 0; the status against the beam's window as it stands at the step's end (the model's reading where EXPOSE SETUP was
applied during a scan's step: log 37); TIMEOUT at the gate counter's top; the reading table's entry, and no other. In an
exposure the reading is judged (R139): OK closes the beam's POWER episode, its record extended to the line before the step's
swath; any other opens it, with a POWER record and its mark request, or extends its record and gives it the reading; and the
step's swath becomes the beam's previous one. A scan posts MEASUREMENT and goes on with its next step (R143). -/
def Obligations.BeamStepEnd : Prop :=
  (∀ (v : BitVec 24) (s : State) (k : Fin 4) (n1 gate : Nat), s.pins.resetAsserted = false →
    s.monitor.step = .beam k → s.monitor.reference = .valid n1 gate →
    let source : Source := if s.monitor.activity = .exposure then .exposure else .scan
    let pi := if v.toNat = 0 then 65535 else min 65535 (4096 * gate / v.toNat)
    let w := s.engine.active.windows.get k
    let status : BeamStatus := if pi < w.lo then .low else if w.hi < pi then .high else .ok
    Answers (.beamStepPulseEnd v) s (s.endBeam k v.toNat n1 (some v.toNat))
    ∧ Answers (.beamStepGateTimeout v) s (s.endBeam k 16777215 v.toNat none)
    ∧ (∃ t, exec (.beamStepPulseEnd v) s = .next t
      ∧ t.monitor.beamTable = s.monitor.beamTable.set k (some ⟨some pi, status, source⟩)
      ∧ t.monitor.refTable = s.monitor.refTable ∧ t.monitor.reference = s.monitor.reference ∧ t.engine = s.engine
      ∧ t.pool = s.pool ∧ t.segs = s.segs ∧ t.memory = s.memory
      ∧ (s.monitor.activity = .exposure → t.monitor.step = .none))
    ∧ ∃ t, exec (.beamStepGateTimeout v) s = .next t
      ∧ t.monitor.beamTable = s.monitor.beamTable.set k (some ⟨none, .timeout, source⟩)
      ∧ t.monitor.refTable = s.monitor.refTable ∧ t.monitor.reference = s.monitor.reference ∧ t.engine = s.engine
      ∧ t.pool = s.pool ∧ t.segs = s.segs ∧ t.memory = s.memory
      ∧ (s.monitor.activity = .exposure → t.monitor.step = .none))
  ∧ ∀ (s : State) (k : Fin 4) (ticks pulses : Nat) (n2 : Option Nat) (n1 gate : Nat),
    s.monitor.reference = .valid n1 gate →
    let m := s.monitor
    let pi : Option Nat := n2.map fun n => if n = 0 then 65535 else min 65535 (4096 * gate / n)
    let w := s.engine.active.windows.get k
    let status : BeamStatus :=
      match pi with
      | none => .timeout
      | some x => if x < w.lo then .low else if w.hi < x then .high else .ok
    let read := s.withMonitor { m with
      step := .none, gateCounter := ticks, pulseCounter := pulses
      beamTable := m.beamTable.set k (some ⟨pi, status, if m.activity = .exposure then .exposure else .scan⟩) }
    ((m.activity = .scanSingle ∨ m.activity = .scanContinuous) →
      ∀ last : Bool,
        (last = true ↔ m.activity = .scanSingle ∧ ∀ j : Fin 4, k < j → m.scanSet.getLsbD j = false) →
        s.endBeam k ticks pulses n2 = (read.post (.measurement k status pi n1 gate n2 last)).scanNext)
    ∧ ((m.activity = .idle ∨ m.activity = .exposure) → ∀ t p, s.engine.taken = some t → s.plate? t.plate = some p →
      let line := 4 * m.stepSwath
      let done (u : State) : State :=
        u.withMonitor { u.monitor with previous := u.monitor.previous.set k m.stepSwath }
      let power (u : State) (e : Episode) : State := u.withMonitor { u.monitor with power := u.monitor.power.set k e }
      let reading : Reading := match pi with | some x => .index x | none => .timeout
      (status = .ok → m.power.get k = .closed → s.endBeam k ticks pulses n2 = done (power read .closed))
      ∧ (∀ link, status = .ok → m.power.get k = .opened link →
        s.endBeam k ticks pulses n2 =
          done (power (read.extendRecord p.id link (line - 1) fun r => { r with opened := some false }) .closed))
      ∧ (∀ link, status ≠ .ok → m.power.get k = .opened link →
        s.endBeam k ticks pulses n2 =
          done (read.extendRecord p.id link (line - 1) fun r => { r with reading := some reading }))
      ∧ (status ≠ .ok → m.power.get k = .closed →
        let prev := 4 * m.previous.get k
        let record : DamageRecord := ⟨.power, t.copy, prev / 256, prev,
          min (p.height - 1) (max (line - 1) (prev + 3)), some true, some k, none, some reading, none⟩
        s.endBeam k ticks pulses n2 =
          done (power (read.addMarked p.id record line)
            (.opened (if p.damage.length < 64 then some p.damage.length else none)))))

/-- MONITOR READ (R133, R192): answered OK in every state with the activity, the step and the five entries, 35 bytes; with a
body, BADARG. INTAKE STALL is tested at the command's end, the model's reading (log 13). -/
def Obligations.MonitorRead : Prop :=
  ∀ (s : State) (m : Message) (rest : List Message), s.Heads m rest → m.kind = 0x0B →
    (m.body = [] →
      Answers .monitorRead s (s.replied m.tag rest .ok
        (let source (x : Source) : BitVec 8 := match x with | .exposure => 0 | .scan => 1
        let beam (k : Fin 4) : List (BitVec 8) :=
          match s.monitor.beamTable.get k with
          | none => [byteOf k.val, 0, 0, 0, 0, 0]
          | some r =>
            [byteOf k.val, 1, (match r.status with | .ok => 0 | .low => 1 | .high => 2 | .timeout => 3), source r.source]
              ++ encBE 2 (r.pi.getD 0)
        let reference : List (BitVec 8) :=
          match s.monitor.refTable with
          | none => [4, 0, 0, 0, 0, 0, 0, 0, 0]
          | some r =>
            [4, 1, (match r.outcome with | .valid => 0 | .fault => 1 | .timeout => 2), source r.source]
              ++ encBE 3 r.n1 ++ encBE 2 r.gate
        let activity : BitVec 8 :=
          match s.monitor.activity with | .idle => 0 | .exposure => 1 | .scanSingle => 2 | .scanContinuous => 3
        let step : BitVec 8 := match s.monitor.step with | .none => 0 | .ref => 1 | .beam k => byteOf (2 + k.val)
        activity :: step :: (beam 0 ++ beam 1 ++ beam 2 ++ beam 3 ++ reference))))
    ∧ (m.body ≠ [] → Answers .monitorRead s (s.replied m.tag rest .badArg []))
    ∧ s.monitor.bytes.length = 35

/-- MONITOR MEASURE (R142): its refusals in the order of the table; accepted, the scan begins with its first REF step, whose
step swath is the swath counter as it stands, the model's reading for a scan's step (log 30). -/
def Obligations.MonitorMeasure : Prop :=
  ∀ (s : State) (m : Message) (rest : List Message), s.Heads m rest → m.kind = 0x0D →
    let set := field m.body 0 1
    let mode := field m.body 1 1
    let scanning := s.monitor.activity = .scanSingle ∨ s.monitor.activity = .scanContinuous
    ((m.body.length ≠ 2 ∨ 15 < set ∨ 1 < mode ∨ set = 0) → Answers .monitorMeasure s (s.replied m.tag rest .badArg []))
    ∧ (m.body.length = 2 → set ≤ 15 → mode ≤ 1 → set ≠ 0 →
      ((s.engine.state ≠ .idle ∨ scanning) → Answers .monitorMeasure s (s.replied m.tag rest .busy []))
      ∧ (s.engine.state = .idle → ¬scanning →
        Answers .monitorMeasure s ((s.withMonitor { s.monitor with
          activity := if mode = 0 then .scanSingle else .scanContinuous, scanSet := BitVec.ofNat 4 set, cursor := none,
          step := .ref, stepSwath := s.engine.swath, stepGate := s.engine.active.gate, gateCounter := 0,
          pulseCounter := 0 }).replied m.tag rest .ok [])))

/-- MONITOR STOP (R145): a running scan ends at once, its step abandoned and told in the reply; no scan running, STATE; with a
body, BADARG and a running scan goes on. That a body is BADARG also where no scan runs, and not STATE, is the model's choice
(log 39). INTAKE STALL is tested at the command's end, the model's reading (log 13). -/
def Obligations.MonitorStop : Prop :=
  ∀ (s : State) (m : Message) (rest : List Message), s.Heads m rest → m.kind = 0x0E →
    let scanning := s.monitor.activity = .scanSingle ∨ s.monitor.activity = .scanContinuous
    (m.body ≠ [] → Answers .monitorStop s (s.replied m.tag rest .badArg []))
    ∧ (m.body = [] → ¬scanning → Answers .monitorStop s (s.replied m.tag rest .state []))
    ∧ (m.body = [] → scanning →
      Answers .monitorStop s ((s.withMonitor { s.monitor with activity := .idle, step := .none }).replied m.tag rest .ok
        [match s.monitor.step with | .none => 0 | .ref => 1 | .beam k => byteOf (2 + k.val)]))

/-! ### Damage, marks and stamps -/

/-- STAMP LOAD (R162): its refusals in the order of the table, and the named pattern replaced by the 64 rows of 8 bytes. INTAKE
STALL is tested at the command's end, the model's reading (log 13). -/
def Obligations.StampLoad : Prop :=
  ∀ (s : State) (m : Message) (rest : List Message), s.Heads m rest → m.kind = 0x0F →
    let n := field m.body 0 1
    ((m.body.length ≠ 513 ∨ 31 < n) → Answers .stampLoad s (s.replied m.tag rest .badArg []))
    ∧ (m.body.length = 513 → n ≤ 31 →
      ((∃ p ∈ s.table.plates, p.state = .active) → Answers .stampLoad s (s.replied m.tag rest .busy []))
      ∧ ((∀ p ∈ s.table.plates, p.state ≠ .active) →
        Answers .stampLoad s ((s.withStamps (s.stamps.set n
          ((List.range 64).map fun r => BitVec.ofNat 64 (field m.body (1 + 8 * r) 8)))).replied m.tag rest .ok [])))

/-- PLATE REPORT (R163, R190): its refusals, that for another body length first (the model's choice: log 39), and the summary's
14 bytes before min(16, stored - first) records of 15. And the 15 bytes of a record, a field whose flag is clear being sent as 0
(R191). -/
def Obligations.PlateReport : Prop :=
  (∀ (r : DamageRecord) (index : Nat),
    let cause : BitVec 8 := match r.cause with
      | .code => 0 | .content => 1 | .starved => 2 | .underrun => 3 | .power => 4 | .blind => 5 | .signature => 6
      | .drum => 7
    let reading : Nat := match r.reading with | some (.index pi) => pi | some .timeout | none => 0
    let flags : BitVec 8 := (if r.opened = some true then 1 else 0) ||| (if r.beam ≠ none then 2 else 0)
      ||| (if r.reading = some .timeout then 4 else 0) ||| (if r.seq ≠ none then 8 else 0)
      ||| (if r.markLine ≠ none then 16 else 0)
    r.bytes index =
        [byteOf index, cause, byteOf r.copy, byteOf r.band] ++ encBE 2 r.first ++ encBE 2 r.last
          ++ [flags, (match r.beam with | none => 0 | some k => byteOf k.val), byteOf (r.seq.getD 0)]
          ++ encBE 2 reading ++ encBE 2 (r.markLine.getD 0)
      ∧ (r.bytes index).length = 15)
  ∧ ∀ (s : State) (m : Message) (rest : List Message), s.Heads m rest → m.kind = 0x10 →
    let first := field m.body 2 1
    (m.body.length ≠ 3 → Answers .plateReport s (s.replied m.tag rest .badArg []))
    ∧ (m.body.length = 3 →
      (s.plate? (field m.body 0 2) = none → Answers .plateReport s (s.replied m.tag rest .notFound []))
      ∧ ∀ p, s.plate? (field m.body 0 2) = some p →
        Answers .plateReport s (s.replied m.tag rest .ok
          (encBE 2 p.id ++ [(match p.state with | .loading => 0 | .active => 1 | .done => 2 | .aborted => 3 | .faulted => 4),
              byteOf p.copies, byteOf p.completed,
              byteOf ((if p.urgent then 1 else 0) + (if p.authorised then 2 else 0)), byteOf p.damage.length]
            ++ encBE 2 p.overflow ++ encBE 2 p.clipped ++ encBE 2 p.late
            ++ [byteOf (min 16 (p.damage.length - first))]
            ++ (((indexed p.damage).drop first).take 16).flatMap fun r => r.2.bytes r.1)))

/-- The damage and marks unit. A swath handed to it (R158): an underrun is noted, the lines below H feed the signature in their
order, the mark lane acts, and the laser head takes the lines with the mark being drawn and the fixed stamps laid on them; the
lane is then free where the swath held the mark's last line (R156). An underrun (R150): a swath of the same band that follows
the run's last line extends its record, and any other makes a new one. A line handed to the unit feeds the accumulator, begun
afresh at a band's first line; a band's last line completes it: the result becomes the band's last signature, and a SIGNATURE
record is made where it differs from the expected one (R151, R152). A FREE lane begins the first request whose line is at or
below the swath's last, and sets the mark line of its record where it has none (R156). Every ink pixel of a pattern makes its
pixel of the line ink, and no other pixel changes (R156, R157). The laser head's outputs (R185): beam data k is the line that
beam k exposes, and none where no swath is exposed (R114, R158); every beam is enabled while a swath is exposed, and the beam of
a BEAM step alone otherwise, with calibration firing on in a BEAM step only (R102, R130; read from the state: log 38). -/
def Obligations.SignatureAndLane : Prop :=
  (∀ (s : State) (p : Plate) (copy line : Nat) (bytes : List (BitVec 8)) (acc : SigAcc),
    (line % 256 = 0 ∧ acc = ⟨line / 256, 0xFFFFFFFF⟩ ∨ line % 256 ≠ 0 ∧ s.marks.sig = some acc) →
    let crc := crc32Feed acc.crc bytes
    (p.lastLine (line / 256) ≠ line →
      s.feedLine p copy line bytes = s.withMarks { s.marks with sig := some ⟨acc.band, crc⟩ })
    ∧ (p.lastLine (line / 256) = line →
      let s' := (s.withMarks { s.marks with sig := none }).modBand p.id acc.band fun x => { x with lastSig := some (~~~crc) }
      ((∀ e, (p.bands[acc.band]?).bind Band.expectedSig = some e → e = ~~~crc) → s.feedLine p copy line bytes = s')
      ∧ ∀ e, (p.bands[acc.band]?).bind Band.expectedSig = some e → e ≠ ~~~crc →
        s.feedLine p copy line bytes = s'.addMarked p.id
          ⟨.signature, copy, acc.band, 256 * acc.band, p.lastLine acc.band, none, none, none, none, none⟩
          (4 * (line / 4))))
  ∧ (∀ (s : State) (id sw : Nat),
    ((∃ d, s.marks.lane = some d) → s.laneStep id sw = s)
    ∧ (s.marks.lane = none → (∀ r, s.marks.queue.head? = some r → 4 * sw + 3 < r.line) → s.laneStep id sw = s)
    ∧ ∀ r rest, s.marks.lane = none → s.marks.queue = r :: rest → r.line ≤ 4 * sw + 3 →
      (s.laneStep id sw).marks = { s.marks with queue := rest, lane := some ⟨r.pattern, 4 * sw⟩ }
        ∧ (r.link = none → (s.laneStep id sw).table = s.table)
        ∧ ∀ index, r.link = some index →
          (s.laneStep id sw).table = (s.modRecord id index fun x =>
            { x with markLine := some (x.markLine.getD (4 * sw)) }).table)
  ∧ (∀ (s : State) (t : Taken) (p : Plate) (sw : Nat) (underrun : Bool) (lines : List (List (BitVec 8))),
    let s1 := if underrun then s.noteUnderrun p t.copy sw else s
    let fed := (lines.zipIdx (4 * sw)).foldl
      (fun x l => if l.2 < p.height then x.feedLine p t.copy l.2 l.1 else x) s1
    let drawn := fed.laneStep p.id sw
    let u := s.handSwath t p sw underrun lines
    u.pins = { s.pins with
        laser := some ⟨sw, (lines.zipIdx (4 * sw)).map fun l => drawn.inked p l.2 l.1⟩ }
      ∧ u.table = drawn.table ∧ u.link = drawn.link ∧ u.engine = s.engine ∧ u.memory = s.memory
      ∧ u.marks = { drawn.marks with
          lane := match drawn.marks.lane with
            | some d => if d.markLine + 63 ≤ 4 * sw + 3 then none else some d
            | none => none })
  ∧ (∀ (s : State) (p : Plate) (copy sw : Nat), s.plate? p.id = some p →
    let last := min (4 * sw + 3) (p.height - 1)
    let band := 4 * sw / 256
    (∀ r, s.marks.run = some r → r.band = band → r.last + 1 = 4 * sw →
      s.noteUnderrun p copy sw =
        (s.withMarks { s.marks with run := some { r with last := last } }).withTable
          (match r.link with
            | none => s.table
            | some i => { s.table with plates := s.table.plates.map fun x =>
                if x.id = p.id then { x with damage := x.damage.modify i fun y => { y with last := last } } else x }))
    ∧ ((∀ r, s.marks.run = some r → r.band ≠ band ∨ r.last + 1 ≠ 4 * sw) →
      let made := s.addMarked p.id ⟨.underrun, copy, band, 4 * sw, last, none, none, none, none, none⟩ (4 * sw)
      s.noteUnderrun p copy sw = made.withMarks { made.marks with
        run := some ⟨band, last, if p.damage.length < 64 then some p.damage.length else none⟩ }))
  ∧ (∀ (s : State) (p : Plate) (l x : Nat) (line : List (BitVec 8)), x < 8 * line.length →
    let pixel (bytes : List (BitVec 8)) (x : Nat) : Bool := (bytes.getD (x / 8) 0).getLsbD (7 - x % 8)
    let ink (pattern left top : Nat) : Prop := top ≤ l ∧ l ≤ top + 63 ∧ left ≤ x ∧ x ≤ left + 63
      ∧ ((s.stamps.getD pattern []).getD (l - top) 0).getLsbD (63 - (x - left)) = true
    (p.height ≤ l → s.inked p l line = line)
    ∧ (l < p.height →
      (s.inked p l line).length = line.length
        ∧ (pixel (s.inked p l line) x = true ↔
          pixel line x = true
            ∨ (∃ d, s.marks.lane = some d ∧ ink d.pattern s.engine.active.laneX d.markLine)
            ∨ ∃ t ∈ p.stamps, ink t.pattern t.x t.y)))
  ∧ ∀ s : State,
    (s.calibrationFiring = true ↔ ∃ k, s.monitor.step = .beam k)
    ∧ ∀ k : Fin 4,
      (s.beamEnable.getLsbD k = true ↔ s.pins.laser ≠ none ∨ s.monitor.step = .beam k)
      ∧ (s.pins.laser = none → s.beamData k = none)
      ∧ ∀ o, s.pins.laser = some o → s.beamData k = o.lines[k.val]?

/-- What the making of a notice, a record and a mark request does. A notice (R178, R179): a FAULT notice joins where fewer
than 32 wait, any other where fewer than 28 do; otherwise it is dropped and the lost count rises by 1 up to 65535. A damage
record (R148, R149): stored at the end of a table of fewer than 64, with its DAMAGE notice; otherwise the overflow count
rises by 1 up to 65535. A mark request (R153): dropped where 8 wait, otherwise placed behind every request whose line is
equal or lower; a record's cause asks for one with the active setup's pattern for it, linked to the record where it was stored
(R102, R153, R154). A record extended takes the higher last line, never past H - 1 (R137, R140). And the class of each notice
(R178), its kind byte and its fields (R187), DAMAGE without its mark line (R149): the sizes that R186 does not give one by one
and the places of the named values are the model's reading (log 22, 23). -/
def Obligations.NoticesRecordsMarks : Prop :=
  (∀ n : Notice,
    let optional (k : Nat) (x : Option Nat) : List (BitVec 8) :=
      match x with | none => 0 :: encBE k 0 | some v => 1 :: encBE k v
    let flag (x : Bool) : BitVec 8 := if x then 1 else 0
    let sent : NoticeClass × BitVec 8 × List (BitVec 8) :=
      match n with
      | .drumFault plate copy swath cause faulted =>
        (.fault, 0x90, encBE 2 plate ++ [byteOf copy] ++ encBE 2 swath
          ++ [match cause with | .watchdog => 0 | .readyLost => 1 | .edgeMissing => 2, flag faulted])
      | .referenceFault plate copy swath outcome n1 gate =>
        (.fault, 0x91, encBE 2 plate ++ [byteOf copy] ++ encBE 2 swath
          ++ [match outcome with | .valid => 0 | .fault => 1 | .timeout => 2] ++ encBE 3 n1 ++ encBE 2 gate)
      | .intakeStall entries ring buffers plate band seq position =>
        (.fault, 0x92, encBE 2 entries ++ encBE 4 ring ++ [byteOf buffers] ++ encBE 2 plate
          ++ [byteOf band, byteOf seq, byteOf position])
      | .damage plate index record => (.damage, 0xA0, encBE 2 plate ++ { record with markLine := none }.bytes index)
      | .segmentRefused plate band seq kind reason =>
        (.damage, 0xA1, encBE 2 plate ++ [byteOf band, byteOf seq, kind,
          match reason with
          | .noPlate => 0 | .badBand => 1 | .badSeq => 2 | .late => 3 | .badRect => 4 | .badParam => 5 | .noScreen => 6
          | .noRoom => 7 | .dup => 8])
      | .segmentAbandoned plate band seq received reason =>
        (.damage, 0xA2, encBE 2 plate ++ [byteOf band, byteOf seq] ++ encBE 4 received
          ++ [match reason with | .check => 0 | .overrun => 1 | .length => 2 | .payload => 3 | .interrupted => 4])
      | .bandLate plate band count copy => (.damage, 0xA3, encBE 2 plate ++ [byteOf band, byteOf count, byteOf copy])
      | .bandReady plate band => (.progress, 0xB0, encBE 2 plate ++ [byteOf band])
      | .plateReady plate => (.progress, 0xB1, encBE 2 plate)
      | .copyDone plate copy copies stored overflow =>
        (.progress, 0xB2, encBE 2 plate ++ [byteOf copy, byteOf copies, byteOf stored] ++ encBE 2 overflow)
      | .plateDone plate completed stored overflow =>
        (.progress, 0xB3, encBE 2 plate ++ [byteOf completed, byteOf stored] ++ encBE 2 overflow)
      | .measurement beam status pi n1 gate n2 last =>
        (.measure, 0xC0, [byteOf beam.val, match status with | .ok => 0 | .low => 1 | .high => 2 | .timeout => 3]
          ++ optional 2 pi ++ encBE 3 n1 ++ encBE 2 gate ++ optional 3 n2 ++ [flag last])
      | .measureAbandoned exposure beam => (.measure, 0xC1, flag exposure :: optional 1 (beam.map Fin.val))
    (n.cls, n.kind, n.fields) = sent)
  ∧ (∀ (s : State) (n : Notice),
    (s.link.notices.length < (if n.cls = .fault then 32 else 28) →
      s.post n = s.withLink { s.link with notices := s.link.notices ++ [n] })
    ∧ ((if n.cls = .fault then 32 else 28) ≤ s.link.notices.length →
      s.post n = s.withLink { s.link with lost := min (s.link.lost + 1) 65535 }))
  ∧ (∀ (s : State) (r : DamageRecord) (p : Plate), s.plate? p.id = some p →
    (p.damage.length < 64 →
      s.addRecord p.id r = (s.modPlate p.id fun x => { x with damage := x.damage ++ [r] }).post
        (.damage p.id p.damage.length r))
    ∧ (64 ≤ p.damage.length →
      s.addRecord p.id r = s.modPlate p.id fun x => { x with overflow := min (x.overflow + 1) 65535 }))
  ∧ (∀ (m : Marks) (pattern line : Nat) (link : Option Nat),
    (8 ≤ m.queue.length → m.request pattern line link = m)
    ∧ (m.queue.length < 8 → ∀ before after : List MarkRequest, m.queue = before ++ after →
      (∀ x ∈ before, x.line ≤ line) → (∀ x, after.head? = some x → line < x.line) →
      m.request pattern line link = { m with queue := before ++ ⟨pattern, line, link⟩ :: after }))
  ∧ (∀ (s : State) (c : Cause) (line : Nat) (link : Option Nat),
    let position : Nat := match c with
      | .code => 0 | .content => 1 | .starved => 2 | .underrun => 3 | .power => 4 | .blind => 5 | .signature => 6
      | .drum => 7
    ((s.engine.active.patterns[position]? = none ∨ s.engine.active.patterns[position]? = some none) →
      s.requestMark c line link = s)
    ∧ ∀ pattern, s.engine.active.patterns[position]? = some (some pattern) →
      s.requestMark c line link = s.withMarks (s.marks.request pattern line link))
  ∧ ∀ (s : State) (p : Plate), s.plate? p.id = some p →
    (∀ (r : DamageRecord) (line : Nat),
      s.addMarked p.id r line = (s.addRecord p.id r).requestMark r.cause line
        (if p.damage.length < 64 then some p.damage.length else none))
    ∧ ∀ (v : Nat) (f : DamageRecord → DamageRecord),
      s.extendRecord p.id none v f = s
        ∧ ∀ i, s.extendRecord p.id (some i) v f = s.modPlate p.id fun x => { x with
            damage := x.damage.modify i fun r => f { r with last := min (p.height - 1) (max r.last v) } }

/-! ### What every command leaves alone, and the laws every step keeps -/

/-- The frame of the commands: no command changes the queue of commands; plate memory changes only with BURST_DONE and the
resets (R164, R170); the stamp store only with STAMP LOAD and the power-on reset (R161); the straps as read only with the
power-on reset (R184); the ring's write position only with an OPEN and the resets (R44); the arbiter's last-served renderer
only with a grant and the resets (R168); the reading table only with the ends of steps, the events that end one early, and
the resets (R132); the output FIFO and the fetch position only with the engine's own events. -/
def Obligations.OnlyOwnersChange : Prop :=
  ∀ (c : Instr) (s t : State), exec c s = .next t →
    t.pending = s.pending
    ∧ (c ≠ .burstDone → c ≠ .softReset → c ≠ .resetPinAsserted → (∀ a r, c ≠ .powerOnReset a r) → t.memory = s.memory)
    ∧ (c ≠ .stampLoad → (∀ a r, c ≠ .powerOnReset a r) → t.stamps = s.stamps)
    ∧ ((∀ a r, c ≠ .powerOnReset a r) → t.pins.address = s.pins.address ∧ t.pins.rate = s.pins.rate)
    ∧ (c ≠ .openFrame → c ≠ .softReset → (∀ a r, c ≠ .powerOnReset a r) → t.segs.writePos = s.segs.writePos)
    ∧ (c ≠ .burstGrant → c ≠ .softReset → (∀ a r, c ≠ .powerOnReset a r) → t.arbiter.lastServed = s.arbiter.lastServed)
    ∧ ((∀ a b, c ≠ .index a b) → (∀ a b, c ≠ .imageEdge a b) → (∀ a, c ≠ .refStepEnd a) →
      (∀ a, c ≠ .beamStepPulseEnd a) → (∀ a, c ≠ .beamStepGateTimeout a) → c ≠ .softReset →
      (∀ a r, c ≠ .powerOnReset a r) →
      t.monitor.beamTable = s.monitor.beamTable ∧ t.monitor.refTable = s.monitor.refTable)
    ∧ ((∀ a b, c ≠ .index a b) → (∀ a b, c ≠ .imageEdge a b) → c ≠ .fetchLineBegin → c ≠ .burstDone →
      c ≠ .plateExpose → c ≠ .plateAbort → c ≠ .drumReadyFall → c ≠ .indexWatchdogExpiry → c ≠ .softReset →
      c ≠ .lineDecodeEnd → c ≠ .screenRenderEnd → (∀ a r, c ≠ .powerOnReset a r) →
      t.engine.fifo = s.engine.fifo ∧ t.engine.fetchPos = s.engine.fetchPos ∧ t.engine.swath = s.engine.swath)

/-- Every law of this section holds in the state after power-on reset. -/
def Obligations.LawsAtReset : Prop :=
  State.reset.memory.wf = true ∧ State.reset.link.Bounded ∧ State.reset.segs.RingLaw ∧ State.reset.marks.Ordered
    ∧ State.reset.engine.FifoLaw ∧ State.reset.table.Bounded ∧ State.reset.StoresWhole ∧ State.reset.QueueLaw
    ∧ State.reset.SegmentLaw ∧ State.reset.Sound

/-- Plate memory keeps its canonical form through every step. -/
def Obligations.MemoryStaysCanonical : Prop :=
  ∀ s t : State, s.memory.wf = true → step s = .next t → t.memory.wf = true

/-- The bounds of the part's stores are kept by every step: the table of 8 plates (R1); the request buffer, the reply and notice
queues and the two counts (R174, R177 to R180); the ring law and the segment queue's 256 places (R41, R44); the damage tables
and the counts that stop at 65535 (R4, R147, R148); the mark queue's length and order (R153); the output FIFO's 32 lines
(R99, R110); the sizes of the two stores (R79, R161). So is the segment queue's own law: one ASSEMBLING entry for the open
segment, one RENDERING entry for each busy renderer, no identity held by two live entries (R43), and a set's use count the
number of live TONE entries that name it, a set in use being READY (R81). -/
def Obligations.BoundsKept : Prop :=
  ∀ s t : State, step s = .next t →
    (s.link.Bounded → t.link.Bounded) ∧ (s.segs.RingLaw → t.segs.RingLaw) ∧ (s.table.Bounded → t.table.Bounded)
      ∧ (s.marks.Ordered → t.marks.Ordered) ∧ (s.engine.FifoLaw → t.engine.FifoLaw) ∧ (s.StoresWhole → t.StoresWhole)
      ∧ (s.SegmentLaw → t.SegmentLaw)

/-- Every step keeps the plate queue's law (R1, R3, R11, R99, R100), and every step keeps the laws of the plate queue, the
segment queue, the bands and the buffers together: the fields of a band agree (R5 to R8); a render goes into a band it has to
itself, in order of seq (R52, R53, R55), and no live entry's seq is below its band's next seq (R43); each of the 160 buffers is
in exactly one place (R46, R47); a plate that holds a buffer leaves free buffers for the plates ahead of it (R50); the exposure
fetch has decided every band it has reached (R7, R110, R112, R113), where a read that outlasts its copy is discarded by the
model's choice (log 36). -/
def Obligations.QueueLawKept : Prop :=
  ∀ s t : State, step s = .next t → (s.QueueLaw → t.QueueLaw) ∧ (s.Sound → t.Sound)

end
end

