-- ==== Sys2Proof/Laws/State.lean ====
section
/-! SUPPORT. What each update of State leaves in each field, and that of two updates of one field the second stands: one lemma
for each update and field, all true by rfl. -/

namespace Sys2Proof.Machine

section withPins
variable (s : State) (x : Pins)

@[simp] theorem withPins_pins : (s.withPins x).pins = x := rfl
@[simp] theorem withPins_link : (s.withPins x).link = s.link := rfl
@[simp] theorem withPins_feed : (s.withPins x).feed = s.feed := rfl
@[simp] theorem withPins_segs : (s.withPins x).segs = s.segs := rfl
@[simp] theorem withPins_pool : (s.withPins x).pool = s.pool := rfl
@[simp] theorem withPins_table : (s.withPins x).table = s.table := rfl
@[simp] theorem withPins_decoder : (s.withPins x).decoder = s.decoder := rfl
@[simp] theorem withPins_screener : (s.withPins x).screener = s.screener := rfl
@[simp] theorem withPins_screens : (s.withPins x).screens = s.screens := rfl
@[simp] theorem withPins_engine : (s.withPins x).engine = s.engine := rfl
@[simp] theorem withPins_monitor : (s.withPins x).monitor = s.monitor := rfl
@[simp] theorem withPins_marks : (s.withPins x).marks = s.marks := rfl
@[simp] theorem withPins_stamps : (s.withPins x).stamps = s.stamps := rfl
@[simp] theorem withPins_arbiter : (s.withPins x).arbiter = s.arbiter := rfl
@[simp] theorem withPins_memory : (s.withPins x).memory = s.memory := rfl
@[simp] theorem withPins_pending : (s.withPins x).pending = s.pending := rfl
@[simp] theorem withPins_withPins (y : Pins) : (s.withPins x).withPins y = s.withPins y := rfl
@[simp] theorem withPins_self : s.withPins s.pins = s := rfl

end withPins

section withLink
variable (s : State) (x : Link)

@[simp] theorem withLink_pins : (s.withLink x).pins = s.pins := rfl
@[simp] theorem withLink_link : (s.withLink x).link = x := rfl
@[simp] theorem withLink_feed : (s.withLink x).feed = s.feed := rfl
@[simp] theorem withLink_segs : (s.withLink x).segs = s.segs := rfl
@[simp] theorem withLink_pool : (s.withLink x).pool = s.pool := rfl
@[simp] theorem withLink_table : (s.withLink x).table = s.table := rfl
@[simp] theorem withLink_decoder : (s.withLink x).decoder = s.decoder := rfl
@[simp] theorem withLink_screener : (s.withLink x).screener = s.screener := rfl
@[simp] theorem withLink_screens : (s.withLink x).screens = s.screens := rfl
@[simp] theorem withLink_engine : (s.withLink x).engine = s.engine := rfl
@[simp] theorem withLink_monitor : (s.withLink x).monitor = s.monitor := rfl
@[simp] theorem withLink_marks : (s.withLink x).marks = s.marks := rfl
@[simp] theorem withLink_stamps : (s.withLink x).stamps = s.stamps := rfl
@[simp] theorem withLink_arbiter : (s.withLink x).arbiter = s.arbiter := rfl
@[simp] theorem withLink_memory : (s.withLink x).memory = s.memory := rfl
@[simp] theorem withLink_pending : (s.withLink x).pending = s.pending := rfl
@[simp] theorem withLink_withLink (y : Link) : (s.withLink x).withLink y = s.withLink y := rfl
@[simp] theorem withLink_self : s.withLink s.link = s := rfl

end withLink

section withFeed
variable (s : State) (x : Feed)

@[simp] theorem withFeed_pins : (s.withFeed x).pins = s.pins := rfl
@[simp] theorem withFeed_link : (s.withFeed x).link = s.link := rfl
@[simp] theorem withFeed_feed : (s.withFeed x).feed = x := rfl
@[simp] theorem withFeed_segs : (s.withFeed x).segs = s.segs := rfl
@[simp] theorem withFeed_pool : (s.withFeed x).pool = s.pool := rfl
@[simp] theorem withFeed_table : (s.withFeed x).table = s.table := rfl
@[simp] theorem withFeed_decoder : (s.withFeed x).decoder = s.decoder := rfl
@[simp] theorem withFeed_screener : (s.withFeed x).screener = s.screener := rfl
@[simp] theorem withFeed_screens : (s.withFeed x).screens = s.screens := rfl
@[simp] theorem withFeed_engine : (s.withFeed x).engine = s.engine := rfl
@[simp] theorem withFeed_monitor : (s.withFeed x).monitor = s.monitor := rfl
@[simp] theorem withFeed_marks : (s.withFeed x).marks = s.marks := rfl
@[simp] theorem withFeed_stamps : (s.withFeed x).stamps = s.stamps := rfl
@[simp] theorem withFeed_arbiter : (s.withFeed x).arbiter = s.arbiter := rfl
@[simp] theorem withFeed_memory : (s.withFeed x).memory = s.memory := rfl
@[simp] theorem withFeed_pending : (s.withFeed x).pending = s.pending := rfl
@[simp] theorem withFeed_withFeed (y : Feed) : (s.withFeed x).withFeed y = s.withFeed y := rfl
@[simp] theorem withFeed_self : s.withFeed s.feed = s := rfl

end withFeed

section withSegs
variable (s : State) (x : Segments)

@[simp] theorem withSegs_pins : (s.withSegs x).pins = s.pins := rfl
@[simp] theorem withSegs_link : (s.withSegs x).link = s.link := rfl
@[simp] theorem withSegs_feed : (s.withSegs x).feed = s.feed := rfl
@[simp] theorem withSegs_segs : (s.withSegs x).segs = x := rfl
@[simp] theorem withSegs_pool : (s.withSegs x).pool = s.pool := rfl
@[simp] theorem withSegs_table : (s.withSegs x).table = s.table := rfl
@[simp] theorem withSegs_decoder : (s.withSegs x).decoder = s.decoder := rfl
@[simp] theorem withSegs_screener : (s.withSegs x).screener = s.screener := rfl
@[simp] theorem withSegs_screens : (s.withSegs x).screens = s.screens := rfl
@[simp] theorem withSegs_engine : (s.withSegs x).engine = s.engine := rfl
@[simp] theorem withSegs_monitor : (s.withSegs x).monitor = s.monitor := rfl
@[simp] theorem withSegs_marks : (s.withSegs x).marks = s.marks := rfl
@[simp] theorem withSegs_stamps : (s.withSegs x).stamps = s.stamps := rfl
@[simp] theorem withSegs_arbiter : (s.withSegs x).arbiter = s.arbiter := rfl
@[simp] theorem withSegs_memory : (s.withSegs x).memory = s.memory := rfl
@[simp] theorem withSegs_pending : (s.withSegs x).pending = s.pending := rfl
@[simp] theorem withSegs_withSegs (y : Segments) : (s.withSegs x).withSegs y = s.withSegs y := rfl
@[simp] theorem withSegs_self : s.withSegs s.segs = s := rfl

end withSegs

section withPool
variable (s : State) (x : Pool)

@[simp] theorem withPool_pins : (s.withPool x).pins = s.pins := rfl
@[simp] theorem withPool_link : (s.withPool x).link = s.link := rfl
@[simp] theorem withPool_feed : (s.withPool x).feed = s.feed := rfl
@[simp] theorem withPool_segs : (s.withPool x).segs = s.segs := rfl
@[simp] theorem withPool_pool : (s.withPool x).pool = x := rfl
@[simp] theorem withPool_table : (s.withPool x).table = s.table := rfl
@[simp] theorem withPool_decoder : (s.withPool x).decoder = s.decoder := rfl
@[simp] theorem withPool_screener : (s.withPool x).screener = s.screener := rfl
@[simp] theorem withPool_screens : (s.withPool x).screens = s.screens := rfl
@[simp] theorem withPool_engine : (s.withPool x).engine = s.engine := rfl
@[simp] theorem withPool_monitor : (s.withPool x).monitor = s.monitor := rfl
@[simp] theorem withPool_marks : (s.withPool x).marks = s.marks := rfl
@[simp] theorem withPool_stamps : (s.withPool x).stamps = s.stamps := rfl
@[simp] theorem withPool_arbiter : (s.withPool x).arbiter = s.arbiter := rfl
@[simp] theorem withPool_memory : (s.withPool x).memory = s.memory := rfl
@[simp] theorem withPool_pending : (s.withPool x).pending = s.pending := rfl
@[simp] theorem withPool_withPool (y : Pool) : (s.withPool x).withPool y = s.withPool y := rfl
@[simp] theorem withPool_self : s.withPool s.pool = s := rfl

end withPool

section withTable
variable (s : State) (x : Table)

@[simp] theorem withTable_pins : (s.withTable x).pins = s.pins := rfl
@[simp] theorem withTable_link : (s.withTable x).link = s.link := rfl
@[simp] theorem withTable_feed : (s.withTable x).feed = s.feed := rfl
@[simp] theorem withTable_segs : (s.withTable x).segs = s.segs := rfl
@[simp] theorem withTable_pool : (s.withTable x).pool = s.pool := rfl
@[simp] theorem withTable_table : (s.withTable x).table = x := rfl
@[simp] theorem withTable_decoder : (s.withTable x).decoder = s.decoder := rfl
@[simp] theorem withTable_screener : (s.withTable x).screener = s.screener := rfl
@[simp] theorem withTable_screens : (s.withTable x).screens = s.screens := rfl
@[simp] theorem withTable_engine : (s.withTable x).engine = s.engine := rfl
@[simp] theorem withTable_monitor : (s.withTable x).monitor = s.monitor := rfl
@[simp] theorem withTable_marks : (s.withTable x).marks = s.marks := rfl
@[simp] theorem withTable_stamps : (s.withTable x).stamps = s.stamps := rfl
@[simp] theorem withTable_arbiter : (s.withTable x).arbiter = s.arbiter := rfl
@[simp] theorem withTable_memory : (s.withTable x).memory = s.memory := rfl
@[simp] theorem withTable_pending : (s.withTable x).pending = s.pending := rfl
@[simp] theorem withTable_withTable (y : Table) : (s.withTable x).withTable y = s.withTable y := rfl
@[simp] theorem withTable_self : s.withTable s.table = s := rfl

end withTable

section withDecoder
variable (s : State) (x : Option Decode)

@[simp] theorem withDecoder_pins : (s.withDecoder x).pins = s.pins := rfl
@[simp] theorem withDecoder_link : (s.withDecoder x).link = s.link := rfl
@[simp] theorem withDecoder_feed : (s.withDecoder x).feed = s.feed := rfl
@[simp] theorem withDecoder_segs : (s.withDecoder x).segs = s.segs := rfl
@[simp] theorem withDecoder_pool : (s.withDecoder x).pool = s.pool := rfl
@[simp] theorem withDecoder_table : (s.withDecoder x).table = s.table := rfl
@[simp] theorem withDecoder_decoder : (s.withDecoder x).decoder = x := rfl
@[simp] theorem withDecoder_screener : (s.withDecoder x).screener = s.screener := rfl
@[simp] theorem withDecoder_screens : (s.withDecoder x).screens = s.screens := rfl
@[simp] theorem withDecoder_engine : (s.withDecoder x).engine = s.engine := rfl
@[simp] theorem withDecoder_monitor : (s.withDecoder x).monitor = s.monitor := rfl
@[simp] theorem withDecoder_marks : (s.withDecoder x).marks = s.marks := rfl
@[simp] theorem withDecoder_stamps : (s.withDecoder x).stamps = s.stamps := rfl
@[simp] theorem withDecoder_arbiter : (s.withDecoder x).arbiter = s.arbiter := rfl
@[simp] theorem withDecoder_memory : (s.withDecoder x).memory = s.memory := rfl
@[simp] theorem withDecoder_pending : (s.withDecoder x).pending = s.pending := rfl
@[simp] theorem withDecoder_withDecoder (y : Option Decode) : (s.withDecoder x).withDecoder y = s.withDecoder y := rfl
@[simp] theorem withDecoder_self : s.withDecoder s.decoder = s := rfl

end withDecoder

section withScreener
variable (s : State) (x : Option Screen)

@[simp] theorem withScreener_pins : (s.withScreener x).pins = s.pins := rfl
@[simp] theorem withScreener_link : (s.withScreener x).link = s.link := rfl
@[simp] theorem withScreener_feed : (s.withScreener x).feed = s.feed := rfl
@[simp] theorem withScreener_segs : (s.withScreener x).segs = s.segs := rfl
@[simp] theorem withScreener_pool : (s.withScreener x).pool = s.pool := rfl
@[simp] theorem withScreener_table : (s.withScreener x).table = s.table := rfl
@[simp] theorem withScreener_decoder : (s.withScreener x).decoder = s.decoder := rfl
@[simp] theorem withScreener_screener : (s.withScreener x).screener = x := rfl
@[simp] theorem withScreener_screens : (s.withScreener x).screens = s.screens := rfl
@[simp] theorem withScreener_engine : (s.withScreener x).engine = s.engine := rfl
@[simp] theorem withScreener_monitor : (s.withScreener x).monitor = s.monitor := rfl
@[simp] theorem withScreener_marks : (s.withScreener x).marks = s.marks := rfl
@[simp] theorem withScreener_stamps : (s.withScreener x).stamps = s.stamps := rfl
@[simp] theorem withScreener_arbiter : (s.withScreener x).arbiter = s.arbiter := rfl
@[simp] theorem withScreener_memory : (s.withScreener x).memory = s.memory := rfl
@[simp] theorem withScreener_pending : (s.withScreener x).pending = s.pending := rfl
@[simp] theorem withScreener_withScreener (y : Option Screen) : (s.withScreener x).withScreener y = s.withScreener y := rfl
@[simp] theorem withScreener_self : s.withScreener s.screener = s := rfl

end withScreener

section withScreens
variable (s : State) (x : List ScreenSet)

@[simp] theorem withScreens_pins : (s.withScreens x).pins = s.pins := rfl
@[simp] theorem withScreens_link : (s.withScreens x).link = s.link := rfl
@[simp] theorem withScreens_feed : (s.withScreens x).feed = s.feed := rfl
@[simp] theorem withScreens_segs : (s.withScreens x).segs = s.segs := rfl
@[simp] theorem withScreens_pool : (s.withScreens x).pool = s.pool := rfl
@[simp] theorem withScreens_table : (s.withScreens x).table = s.table := rfl
@[simp] theorem withScreens_decoder : (s.withScreens x).decoder = s.decoder := rfl
@[simp] theorem withScreens_screener : (s.withScreens x).screener = s.screener := rfl
@[simp] theorem withScreens_screens : (s.withScreens x).screens = x := rfl
@[simp] theorem withScreens_engine : (s.withScreens x).engine = s.engine := rfl
@[simp] theorem withScreens_monitor : (s.withScreens x).monitor = s.monitor := rfl
@[simp] theorem withScreens_marks : (s.withScreens x).marks = s.marks := rfl
@[simp] theorem withScreens_stamps : (s.withScreens x).stamps = s.stamps := rfl
@[simp] theorem withScreens_arbiter : (s.withScreens x).arbiter = s.arbiter := rfl
@[simp] theorem withScreens_memory : (s.withScreens x).memory = s.memory := rfl
@[simp] theorem withScreens_pending : (s.withScreens x).pending = s.pending := rfl
@[simp] theorem withScreens_withScreens (y : List ScreenSet) : (s.withScreens x).withScreens y = s.withScreens y := rfl
@[simp] theorem withScreens_self : s.withScreens s.screens = s := rfl

end withScreens

section withEngine
variable (s : State) (x : Engine)

@[simp] theorem withEngine_pins : (s.withEngine x).pins = s.pins := rfl
@[simp] theorem withEngine_link : (s.withEngine x).link = s.link := rfl
@[simp] theorem withEngine_feed : (s.withEngine x).feed = s.feed := rfl
@[simp] theorem withEngine_segs : (s.withEngine x).segs = s.segs := rfl
@[simp] theorem withEngine_pool : (s.withEngine x).pool = s.pool := rfl
@[simp] theorem withEngine_table : (s.withEngine x).table = s.table := rfl
@[simp] theorem withEngine_decoder : (s.withEngine x).decoder = s.decoder := rfl
@[simp] theorem withEngine_screener : (s.withEngine x).screener = s.screener := rfl
@[simp] theorem withEngine_screens : (s.withEngine x).screens = s.screens := rfl
@[simp] theorem withEngine_engine : (s.withEngine x).engine = x := rfl
@[simp] theorem withEngine_monitor : (s.withEngine x).monitor = s.monitor := rfl
@[simp] theorem withEngine_marks : (s.withEngine x).marks = s.marks := rfl
@[simp] theorem withEngine_stamps : (s.withEngine x).stamps = s.stamps := rfl
@[simp] theorem withEngine_arbiter : (s.withEngine x).arbiter = s.arbiter := rfl
@[simp] theorem withEngine_memory : (s.withEngine x).memory = s.memory := rfl
@[simp] theorem withEngine_pending : (s.withEngine x).pending = s.pending := rfl
@[simp] theorem withEngine_withEngine (y : Engine) : (s.withEngine x).withEngine y = s.withEngine y := rfl
@[simp] theorem withEngine_self : s.withEngine s.engine = s := rfl

end withEngine

section withMonitor
variable (s : State) (x : Monitor)

@[simp] theorem withMonitor_pins : (s.withMonitor x).pins = s.pins := rfl
@[simp] theorem withMonitor_link : (s.withMonitor x).link = s.link := rfl
@[simp] theorem withMonitor_feed : (s.withMonitor x).feed = s.feed := rfl
@[simp] theorem withMonitor_segs : (s.withMonitor x).segs = s.segs := rfl
@[simp] theorem withMonitor_pool : (s.withMonitor x).pool = s.pool := rfl
@[simp] theorem withMonitor_table : (s.withMonitor x).table = s.table := rfl
@[simp] theorem withMonitor_decoder : (s.withMonitor x).decoder = s.decoder := rfl
@[simp] theorem withMonitor_screener : (s.withMonitor x).screener = s.screener := rfl
@[simp] theorem withMonitor_screens : (s.withMonitor x).screens = s.screens := rfl
@[simp] theorem withMonitor_engine : (s.withMonitor x).engine = s.engine := rfl
@[simp] theorem withMonitor_monitor : (s.withMonitor x).monitor = x := rfl
@[simp] theorem withMonitor_marks : (s.withMonitor x).marks = s.marks := rfl
@[simp] theorem withMonitor_stamps : (s.withMonitor x).stamps = s.stamps := rfl
@[simp] theorem withMonitor_arbiter : (s.withMonitor x).arbiter = s.arbiter := rfl
@[simp] theorem withMonitor_memory : (s.withMonitor x).memory = s.memory := rfl
@[simp] theorem withMonitor_pending : (s.withMonitor x).pending = s.pending := rfl
@[simp] theorem withMonitor_withMonitor (y : Monitor) : (s.withMonitor x).withMonitor y = s.withMonitor y := rfl
@[simp] theorem withMonitor_self : s.withMonitor s.monitor = s := rfl

end withMonitor

section withMarks
variable (s : State) (x : Marks)

@[simp] theorem withMarks_pins : (s.withMarks x).pins = s.pins := rfl
@[simp] theorem withMarks_link : (s.withMarks x).link = s.link := rfl
@[simp] theorem withMarks_feed : (s.withMarks x).feed = s.feed := rfl
@[simp] theorem withMarks_segs : (s.withMarks x).segs = s.segs := rfl
@[simp] theorem withMarks_pool : (s.withMarks x).pool = s.pool := rfl
@[simp] theorem withMarks_table : (s.withMarks x).table = s.table := rfl
@[simp] theorem withMarks_decoder : (s.withMarks x).decoder = s.decoder := rfl
@[simp] theorem withMarks_screener : (s.withMarks x).screener = s.screener := rfl
@[simp] theorem withMarks_screens : (s.withMarks x).screens = s.screens := rfl
@[simp] theorem withMarks_engine : (s.withMarks x).engine = s.engine := rfl
@[simp] theorem withMarks_monitor : (s.withMarks x).monitor = s.monitor := rfl
@[simp] theorem withMarks_marks : (s.withMarks x).marks = x := rfl
@[simp] theorem withMarks_stamps : (s.withMarks x).stamps = s.stamps := rfl
@[simp] theorem withMarks_arbiter : (s.withMarks x).arbiter = s.arbiter := rfl
@[simp] theorem withMarks_memory : (s.withMarks x).memory = s.memory := rfl
@[simp] theorem withMarks_pending : (s.withMarks x).pending = s.pending := rfl
@[simp] theorem withMarks_withMarks (y : Marks) : (s.withMarks x).withMarks y = s.withMarks y := rfl
@[simp] theorem withMarks_self : s.withMarks s.marks = s := rfl

end withMarks

section withStamps
variable (s : State) (x : List (List (BitVec 64)))

@[simp] theorem withStamps_pins : (s.withStamps x).pins = s.pins := rfl
@[simp] theorem withStamps_link : (s.withStamps x).link = s.link := rfl
@[simp] theorem withStamps_feed : (s.withStamps x).feed = s.feed := rfl
@[simp] theorem withStamps_segs : (s.withStamps x).segs = s.segs := rfl
@[simp] theorem withStamps_pool : (s.withStamps x).pool = s.pool := rfl
@[simp] theorem withStamps_table : (s.withStamps x).table = s.table := rfl
@[simp] theorem withStamps_decoder : (s.withStamps x).decoder = s.decoder := rfl
@[simp] theorem withStamps_screener : (s.withStamps x).screener = s.screener := rfl
@[simp] theorem withStamps_screens : (s.withStamps x).screens = s.screens := rfl
@[simp] theorem withStamps_engine : (s.withStamps x).engine = s.engine := rfl
@[simp] theorem withStamps_monitor : (s.withStamps x).monitor = s.monitor := rfl
@[simp] theorem withStamps_marks : (s.withStamps x).marks = s.marks := rfl
@[simp] theorem withStamps_stamps : (s.withStamps x).stamps = x := rfl
@[simp] theorem withStamps_arbiter : (s.withStamps x).arbiter = s.arbiter := rfl
@[simp] theorem withStamps_memory : (s.withStamps x).memory = s.memory := rfl
@[simp] theorem withStamps_pending : (s.withStamps x).pending = s.pending := rfl
@[simp] theorem withStamps_withStamps (y : List (List (BitVec 64))) : (s.withStamps x).withStamps y = s.withStamps y := rfl
@[simp] theorem withStamps_self : s.withStamps s.stamps = s := rfl

end withStamps

section withArbiter
variable (s : State) (x : Arbiter)

@[simp] theorem withArbiter_pins : (s.withArbiter x).pins = s.pins := rfl
@[simp] theorem withArbiter_link : (s.withArbiter x).link = s.link := rfl
@[simp] theorem withArbiter_feed : (s.withArbiter x).feed = s.feed := rfl
@[simp] theorem withArbiter_segs : (s.withArbiter x).segs = s.segs := rfl
@[simp] theorem withArbiter_pool : (s.withArbiter x).pool = s.pool := rfl
@[simp] theorem withArbiter_table : (s.withArbiter x).table = s.table := rfl
@[simp] theorem withArbiter_decoder : (s.withArbiter x).decoder = s.decoder := rfl
@[simp] theorem withArbiter_screener : (s.withArbiter x).screener = s.screener := rfl
@[simp] theorem withArbiter_screens : (s.withArbiter x).screens = s.screens := rfl
@[simp] theorem withArbiter_engine : (s.withArbiter x).engine = s.engine := rfl
@[simp] theorem withArbiter_monitor : (s.withArbiter x).monitor = s.monitor := rfl
@[simp] theorem withArbiter_marks : (s.withArbiter x).marks = s.marks := rfl
@[simp] theorem withArbiter_stamps : (s.withArbiter x).stamps = s.stamps := rfl
@[simp] theorem withArbiter_arbiter : (s.withArbiter x).arbiter = x := rfl
@[simp] theorem withArbiter_memory : (s.withArbiter x).memory = s.memory := rfl
@[simp] theorem withArbiter_pending : (s.withArbiter x).pending = s.pending := rfl
@[simp] theorem withArbiter_withArbiter (y : Arbiter) : (s.withArbiter x).withArbiter y = s.withArbiter y := rfl
@[simp] theorem withArbiter_self : s.withArbiter s.arbiter = s := rfl

end withArbiter

section withMemory
variable (s : State) (x : Memory)

@[simp] theorem withMemory_pins : (s.withMemory x).pins = s.pins := rfl
@[simp] theorem withMemory_link : (s.withMemory x).link = s.link := rfl
@[simp] theorem withMemory_feed : (s.withMemory x).feed = s.feed := rfl
@[simp] theorem withMemory_segs : (s.withMemory x).segs = s.segs := rfl
@[simp] theorem withMemory_pool : (s.withMemory x).pool = s.pool := rfl
@[simp] theorem withMemory_table : (s.withMemory x).table = s.table := rfl
@[simp] theorem withMemory_decoder : (s.withMemory x).decoder = s.decoder := rfl
@[simp] theorem withMemory_screener : (s.withMemory x).screener = s.screener := rfl
@[simp] theorem withMemory_screens : (s.withMemory x).screens = s.screens := rfl
@[simp] theorem withMemory_engine : (s.withMemory x).engine = s.engine := rfl
@[simp] theorem withMemory_monitor : (s.withMemory x).monitor = s.monitor := rfl
@[simp] theorem withMemory_marks : (s.withMemory x).marks = s.marks := rfl
@[simp] theorem withMemory_stamps : (s.withMemory x).stamps = s.stamps := rfl
@[simp] theorem withMemory_arbiter : (s.withMemory x).arbiter = s.arbiter := rfl
@[simp] theorem withMemory_memory : (s.withMemory x).memory = x := rfl
@[simp] theorem withMemory_pending : (s.withMemory x).pending = s.pending := rfl
@[simp] theorem withMemory_withMemory (y : Memory) : (s.withMemory x).withMemory y = s.withMemory y := rfl
@[simp] theorem withMemory_self : s.withMemory s.memory = s := rfl

end withMemory

section withPending
variable (s : State) (x : List Instr)

@[simp] theorem withPending_pins : (s.withPending x).pins = s.pins := rfl
@[simp] theorem withPending_link : (s.withPending x).link = s.link := rfl
@[simp] theorem withPending_feed : (s.withPending x).feed = s.feed := rfl
@[simp] theorem withPending_segs : (s.withPending x).segs = s.segs := rfl
@[simp] theorem withPending_pool : (s.withPending x).pool = s.pool := rfl
@[simp] theorem withPending_table : (s.withPending x).table = s.table := rfl
@[simp] theorem withPending_decoder : (s.withPending x).decoder = s.decoder := rfl
@[simp] theorem withPending_screener : (s.withPending x).screener = s.screener := rfl
@[simp] theorem withPending_screens : (s.withPending x).screens = s.screens := rfl
@[simp] theorem withPending_engine : (s.withPending x).engine = s.engine := rfl
@[simp] theorem withPending_monitor : (s.withPending x).monitor = s.monitor := rfl
@[simp] theorem withPending_marks : (s.withPending x).marks = s.marks := rfl
@[simp] theorem withPending_stamps : (s.withPending x).stamps = s.stamps := rfl
@[simp] theorem withPending_arbiter : (s.withPending x).arbiter = s.arbiter := rfl
@[simp] theorem withPending_memory : (s.withPending x).memory = s.memory := rfl
@[simp] theorem withPending_pending : (s.withPending x).pending = x := rfl
@[simp] theorem withPending_withPending (y : List Instr) : (s.withPending x).withPending y = s.withPending y := rfl
@[simp] theorem withPending_self : s.withPending s.pending = s := rfl

end withPending

end Sys2Proof.Machine
end

