-- ==== Sys2Proof/Laws/Frames.lean ====
section
/-! SUPPORT. The frame of every shared operation: the fields of State it leaves as they were. -/

set_option linter.unusedTactic false
set_option linter.unreachableTactic false

namespace Sys2Proof.Machine

/-! ### Ops -/

@[simp] theorem post_frame (s : State) (n : Notice) :
    (s.post n).pins = s.pins ∧ (s.post n).feed = s.feed ∧ (s.post n).segs = s.segs ∧ (s.post n).pool = s.pool ∧
    (s.post n).table = s.table ∧ (s.post n).decoder = s.decoder ∧ (s.post n).screener = s.screener ∧
    (s.post n).screens = s.screens ∧ (s.post n).engine = s.engine ∧ (s.post n).monitor = s.monitor ∧
    (s.post n).marks = s.marks ∧ (s.post n).stamps = s.stamps ∧ (s.post n).arbiter = s.arbiter ∧
    (s.post n).memory = s.memory ∧ (s.post n).pending = s.pending := by
  unfold State.post
  repeat' (first | split | (dsimp only; split))
  all_goals simp

@[simp] theorem answer_frame (s : State) (a : Status) (r : List Byte) :
    (s.answer a r).pins = s.pins ∧ (s.answer a r).feed = s.feed ∧ (s.answer a r).segs = s.segs ∧
    (s.answer a r).pool = s.pool ∧ (s.answer a r).table = s.table ∧ (s.answer a r).decoder = s.decoder ∧
    (s.answer a r).screener = s.screener ∧ (s.answer a r).screens = s.screens ∧ (s.answer a r).engine = s.engine ∧
    (s.answer a r).monitor = s.monitor ∧ (s.answer a r).marks = s.marks ∧ (s.answer a r).stamps = s.stamps ∧
    (s.answer a r).arbiter = s.arbiter ∧ (s.answer a r).memory = s.memory ∧ (s.answer a r).pending = s.pending := by
  unfold State.answer
  repeat' (first | split | (dsimp only; split))
  all_goals simp

@[simp] theorem modPlate_frame (s : State) (id : Nat) (f : Plate → Plate) :
    (s.modPlate id f).pins = s.pins ∧ (s.modPlate id f).link = s.link ∧ (s.modPlate id f).feed = s.feed ∧
    (s.modPlate id f).segs = s.segs ∧ (s.modPlate id f).pool = s.pool ∧ (s.modPlate id f).decoder = s.decoder ∧
    (s.modPlate id f).screener = s.screener ∧ (s.modPlate id f).screens = s.screens ∧
    (s.modPlate id f).engine = s.engine ∧ (s.modPlate id f).monitor = s.monitor ∧ (s.modPlate id f).marks = s.marks ∧
    (s.modPlate id f).stamps = s.stamps ∧ (s.modPlate id f).arbiter = s.arbiter ∧
    (s.modPlate id f).memory = s.memory ∧ (s.modPlate id f).pending = s.pending := by
  unfold State.modPlate
  repeat' (first | split | (dsimp only; split))
  all_goals simp

@[simp] theorem modBand_frame (s : State) (id b : Nat) (f : Band → Band) :
    (s.modBand id b f).pins = s.pins ∧ (s.modBand id b f).link = s.link ∧ (s.modBand id b f).feed = s.feed ∧
    (s.modBand id b f).segs = s.segs ∧ (s.modBand id b f).pool = s.pool ∧ (s.modBand id b f).decoder = s.decoder ∧
    (s.modBand id b f).screener = s.screener ∧ (s.modBand id b f).screens = s.screens ∧
    (s.modBand id b f).engine = s.engine ∧ (s.modBand id b f).monitor = s.monitor ∧
    (s.modBand id b f).marks = s.marks ∧ (s.modBand id b f).stamps = s.stamps ∧
    (s.modBand id b f).arbiter = s.arbiter ∧ (s.modBand id b f).memory = s.memory ∧
    (s.modBand id b f).pending = s.pending := by
  unfold State.modBand
  repeat' (first | split | (dsimp only; split))
  all_goals simp

@[simp] theorem modRecord_frame (s : State) (id i : Nat) (f : DamageRecord → DamageRecord) :
    (s.modRecord id i f).pins = s.pins ∧ (s.modRecord id i f).link = s.link ∧ (s.modRecord id i f).feed = s.feed ∧
    (s.modRecord id i f).segs = s.segs ∧ (s.modRecord id i f).pool = s.pool ∧
    (s.modRecord id i f).decoder = s.decoder ∧ (s.modRecord id i f).screener = s.screener ∧
    (s.modRecord id i f).screens = s.screens ∧ (s.modRecord id i f).engine = s.engine ∧
    (s.modRecord id i f).monitor = s.monitor ∧ (s.modRecord id i f).marks = s.marks ∧
    (s.modRecord id i f).stamps = s.stamps ∧ (s.modRecord id i f).arbiter = s.arbiter ∧
    (s.modRecord id i f).memory = s.memory ∧ (s.modRecord id i f).pending = s.pending := by
  unfold State.modRecord
  repeat' (first | split | (dsimp only; split))
  all_goals simp

@[simp] theorem leaveQueue_frame (s : State) (id : Nat) :
    (s.leaveQueue id).pins = s.pins ∧ (s.leaveQueue id).link = s.link ∧ (s.leaveQueue id).feed = s.feed ∧
    (s.leaveQueue id).segs = s.segs ∧ (s.leaveQueue id).pool = s.pool ∧ (s.leaveQueue id).decoder = s.decoder ∧
    (s.leaveQueue id).screener = s.screener ∧ (s.leaveQueue id).screens = s.screens ∧
    (s.leaveQueue id).engine = s.engine ∧ (s.leaveQueue id).monitor = s.monitor ∧ (s.leaveQueue id).marks = s.marks ∧
    (s.leaveQueue id).stamps = s.stamps ∧ (s.leaveQueue id).arbiter = s.arbiter ∧
    (s.leaveQueue id).memory = s.memory ∧ (s.leaveQueue id).pending = s.pending := by
  unfold State.leaveQueue
  repeat' (first | split | (dsimp only; split))
  all_goals simp

@[simp] theorem returnBuffers_frame (s : State) (l : List Nat) :
    (s.returnBuffers l).pins = s.pins ∧ (s.returnBuffers l).link = s.link ∧ (s.returnBuffers l).feed = s.feed ∧
    (s.returnBuffers l).segs = s.segs ∧ (s.returnBuffers l).table = s.table ∧
    (s.returnBuffers l).decoder = s.decoder ∧ (s.returnBuffers l).screener = s.screener ∧
    (s.returnBuffers l).screens = s.screens ∧ (s.returnBuffers l).engine = s.engine ∧
    (s.returnBuffers l).monitor = s.monitor ∧ (s.returnBuffers l).marks = s.marks ∧
    (s.returnBuffers l).stamps = s.stamps ∧ (s.returnBuffers l).arbiter = s.arbiter ∧
    (s.returnBuffers l).memory = s.memory ∧ (s.returnBuffers l).pending = s.pending := by
  unfold State.returnBuffers
  repeat' (first | split | (dsimp only; split))
  all_goals simp

@[simp] theorem testHold_frame (s : State) :
    (s.testHold).pins = s.pins ∧ (s.testHold).link = s.link ∧ (s.testHold).segs = s.segs ∧
    (s.testHold).pool = s.pool ∧ (s.testHold).table = s.table ∧ (s.testHold).decoder = s.decoder ∧
    (s.testHold).screener = s.screener ∧ (s.testHold).screens = s.screens ∧ (s.testHold).engine = s.engine ∧
    (s.testHold).monitor = s.monitor ∧ (s.testHold).marks = s.marks ∧ (s.testHold).stamps = s.stamps ∧
    (s.testHold).arbiter = s.arbiter ∧ (s.testHold).memory = s.memory ∧ (s.testHold).pending = s.pending := by
  unfold State.testHold
  repeat' (first | split | (dsimp only; split))
  all_goals simp

theorem releaseFrom_frame (l : List Entry) (s : State) :
    (releaseFrom l s).pins = s.pins ∧ (releaseFrom l s).link = s.link ∧ (releaseFrom l s).pool = s.pool ∧
    (releaseFrom l s).table = s.table ∧ (releaseFrom l s).decoder = s.decoder ∧
    (releaseFrom l s).screener = s.screener ∧ (releaseFrom l s).screens = s.screens ∧
    (releaseFrom l s).engine = s.engine ∧ (releaseFrom l s).monitor = s.monitor ∧ (releaseFrom l s).marks = s.marks ∧
    (releaseFrom l s).stamps = s.stamps ∧ (releaseFrom l s).arbiter = s.arbiter ∧
    (releaseFrom l s).memory = s.memory ∧ (releaseFrom l s).pending = s.pending := by
  induction l generalizing s with
  | nil => simp [releaseFrom]
  | cons e rest ih =>
    unfold releaseFrom
    split
    · simpa using ih (s.withSegs { s.segs with queue := rest }).testHold
    · simp

@[simp] theorem releaseRing_frame (s : State) :
    (s.releaseRing).pins = s.pins ∧ (s.releaseRing).link = s.link ∧ (s.releaseRing).pool = s.pool ∧
    (s.releaseRing).table = s.table ∧ (s.releaseRing).decoder = s.decoder ∧ (s.releaseRing).screener = s.screener ∧
    (s.releaseRing).screens = s.screens ∧ (s.releaseRing).engine = s.engine ∧ (s.releaseRing).monitor = s.monitor ∧
    (s.releaseRing).marks = s.marks ∧ (s.releaseRing).stamps = s.stamps ∧ (s.releaseRing).arbiter = s.arbiter ∧
    (s.releaseRing).memory = s.memory ∧ (s.releaseRing).pending = s.pending := by
  unfold State.releaseRing
  exact releaseFrom_frame _ s

@[simp] theorem finishFrame_frame (s : State) :
    (s.finishFrame).pins = s.pins ∧ (s.finishFrame).link = s.link ∧ (s.finishFrame).segs = s.segs ∧
    (s.finishFrame).pool = s.pool ∧ (s.finishFrame).table = s.table ∧ (s.finishFrame).decoder = s.decoder ∧
    (s.finishFrame).screener = s.screener ∧ (s.finishFrame).screens = s.screens ∧ (s.finishFrame).engine = s.engine ∧
    (s.finishFrame).monitor = s.monitor ∧ (s.finishFrame).marks = s.marks ∧ (s.finishFrame).stamps = s.stamps ∧
    (s.finishFrame).arbiter = s.arbiter ∧ (s.finishFrame).memory = s.memory ∧ (s.finishFrame).pending = s.pending := by
  unfold State.finishFrame
  repeat' (first | split | (dsimp only; split))
  all_goals simp

@[simp] theorem abandon_frame (s : State) (r : Abandon) (i : Intake) :
    (s.abandon r i).pins = s.pins ∧ (s.abandon r i).pool = s.pool ∧ (s.abandon r i).table = s.table ∧
    (s.abandon r i).decoder = s.decoder ∧ (s.abandon r i).screener = s.screener ∧ (s.abandon r i).engine = s.engine ∧
    (s.abandon r i).monitor = s.monitor ∧ (s.abandon r i).marks = s.marks ∧ (s.abandon r i).stamps = s.stamps ∧
    (s.abandon r i).memory = s.memory ∧ (s.abandon r i).pending = s.pending := by
  unfold State.abandon
  repeat' (first | split | (dsimp only; split))
  all_goals simp

@[simp] theorem interrupt_frame (s : State) (w : Header → Bool) :
    (s.interrupt w).pins = s.pins ∧ (s.interrupt w).pool = s.pool ∧ (s.interrupt w).table = s.table ∧
    (s.interrupt w).decoder = s.decoder ∧ (s.interrupt w).screener = s.screener ∧ (s.interrupt w).engine = s.engine ∧
    (s.interrupt w).monitor = s.monitor ∧ (s.interrupt w).marks = s.marks ∧ (s.interrupt w).stamps = s.stamps ∧
    (s.interrupt w).memory = s.memory ∧ (s.interrupt w).pending = s.pending := by
  unfold State.interrupt
  repeat' (first | split | (dsimp only; split))
  all_goals simp

@[simp] theorem discard_frame (s : State) (w : Entry → Bool) :
    (s.discard w).pins = s.pins ∧ (s.discard w).link = s.link ∧ (s.discard w).feed = s.feed ∧
    (s.discard w).pool = s.pool ∧ (s.discard w).table = s.table ∧ (s.discard w).decoder = s.decoder ∧
    (s.discard w).screener = s.screener ∧ (s.discard w).engine = s.engine ∧ (s.discard w).monitor = s.monitor ∧
    (s.discard w).marks = s.marks ∧ (s.discard w).stamps = s.stamps ∧ (s.discard w).arbiter = s.arbiter ∧
    (s.discard w).memory = s.memory ∧ (s.discard w).pending = s.pending := by
  unfold State.discard
  repeat' (first | split | (dsimp only; split))
  all_goals simp

@[simp] theorem requestMark_frame (s : State) (c : Cause) (l : Nat) (k : Option Nat) :
    (s.requestMark c l k).pins = s.pins ∧ (s.requestMark c l k).link = s.link ∧ (s.requestMark c l k).feed = s.feed ∧
    (s.requestMark c l k).segs = s.segs ∧ (s.requestMark c l k).pool = s.pool ∧
    (s.requestMark c l k).table = s.table ∧ (s.requestMark c l k).decoder = s.decoder ∧
    (s.requestMark c l k).screener = s.screener ∧ (s.requestMark c l k).screens = s.screens ∧
    (s.requestMark c l k).engine = s.engine ∧ (s.requestMark c l k).monitor = s.monitor ∧
    (s.requestMark c l k).stamps = s.stamps ∧ (s.requestMark c l k).arbiter = s.arbiter ∧
    (s.requestMark c l k).memory = s.memory ∧ (s.requestMark c l k).pending = s.pending := by
  unfold State.requestMark
  repeat' (first | split | (dsimp only; split))
  all_goals simp

@[simp] theorem addRecord_frame (s : State) (id : Nat) (r : DamageRecord) :
    (s.addRecord id r).pins = s.pins ∧ (s.addRecord id r).feed = s.feed ∧ (s.addRecord id r).segs = s.segs ∧
    (s.addRecord id r).pool = s.pool ∧ (s.addRecord id r).decoder = s.decoder ∧
    (s.addRecord id r).screener = s.screener ∧ (s.addRecord id r).screens = s.screens ∧
    (s.addRecord id r).engine = s.engine ∧ (s.addRecord id r).monitor = s.monitor ∧
    (s.addRecord id r).marks = s.marks ∧ (s.addRecord id r).stamps = s.stamps ∧
    (s.addRecord id r).arbiter = s.arbiter ∧ (s.addRecord id r).memory = s.memory ∧
    (s.addRecord id r).pending = s.pending := by
  unfold State.addRecord
  repeat' (first | split | (dsimp only; split))
  all_goals simp

@[simp] theorem addMarked_frame (s : State) (id : Nat) (r : DamageRecord) (l : Nat) :
    (s.addMarked id r l).pins = s.pins ∧ (s.addMarked id r l).feed = s.feed ∧ (s.addMarked id r l).segs = s.segs ∧
    (s.addMarked id r l).pool = s.pool ∧ (s.addMarked id r l).decoder = s.decoder ∧
    (s.addMarked id r l).screener = s.screener ∧ (s.addMarked id r l).screens = s.screens ∧
    (s.addMarked id r l).engine = s.engine ∧ (s.addMarked id r l).monitor = s.monitor ∧
    (s.addMarked id r l).stamps = s.stamps ∧ (s.addMarked id r l).arbiter = s.arbiter ∧
    (s.addMarked id r l).memory = s.memory ∧ (s.addMarked id r l).pending = s.pending := by
  unfold State.addMarked
  repeat' (first | split | (dsimp only; split))
  all_goals simp

@[simp] theorem extendRecord_frame (s : State) (id : Nat) (k : Option Nat) (v : Nat) (f : DamageRecord → DamageRecord) :
    (s.extendRecord id k v f).pins = s.pins ∧ (s.extendRecord id k v f).link = s.link ∧
    (s.extendRecord id k v f).feed = s.feed ∧ (s.extendRecord id k v f).segs = s.segs ∧
    (s.extendRecord id k v f).pool = s.pool ∧ (s.extendRecord id k v f).decoder = s.decoder ∧
    (s.extendRecord id k v f).screener = s.screener ∧ (s.extendRecord id k v f).screens = s.screens ∧
    (s.extendRecord id k v f).engine = s.engine ∧ (s.extendRecord id k v f).monitor = s.monitor ∧
    (s.extendRecord id k v f).marks = s.marks ∧ (s.extendRecord id k v f).stamps = s.stamps ∧
    (s.extendRecord id k v f).arbiter = s.arbiter ∧ (s.extendRecord id k v f).memory = s.memory ∧
    (s.extendRecord id k v f).pending = s.pending := by
  unfold State.extendRecord
  repeat' (first | split | (dsimp only; split))
  all_goals simp

@[simp] theorem testStall_frame (s : State) :
    (s.testStall).pins = s.pins ∧ (s.testStall).segs = s.segs ∧ (s.testStall).pool = s.pool ∧
    (s.testStall).table = s.table ∧ (s.testStall).decoder = s.decoder ∧ (s.testStall).screener = s.screener ∧
    (s.testStall).screens = s.screens ∧ (s.testStall).engine = s.engine ∧ (s.testStall).monitor = s.monitor ∧
    (s.testStall).marks = s.marks ∧ (s.testStall).stamps = s.stamps ∧ (s.testStall).arbiter = s.arbiter ∧
    (s.testStall).memory = s.memory ∧ (s.testStall).pending = s.pending := by
  unfold State.testStall
  repeat' (first | split | (dsimp only; split))
  all_goals simp

/-! ### Engine -/

@[simp] theorem abandonScan_frame (s : State) :
    (s.abandonScan).pins = s.pins ∧ (s.abandonScan).feed = s.feed ∧ (s.abandonScan).segs = s.segs ∧
    (s.abandonScan).pool = s.pool ∧ (s.abandonScan).table = s.table ∧ (s.abandonScan).decoder = s.decoder ∧
    (s.abandonScan).screener = s.screener ∧ (s.abandonScan).screens = s.screens ∧ (s.abandonScan).engine = s.engine ∧
    (s.abandonScan).marks = s.marks ∧ (s.abandonScan).stamps = s.stamps ∧ (s.abandonScan).arbiter = s.arbiter ∧
    (s.abandonScan).memory = s.memory ∧ (s.abandonScan).pending = s.pending := by
  unfold State.abandonScan
  repeat' (first | split | (dsimp only; split))
  all_goals simp

@[simp] theorem leaveLead_frame (s : State) (t : Taken) (p : Plate) :
    (s.leaveLead t p).pins = s.pins ∧ (s.leaveLead t p).link = s.link ∧ (s.leaveLead t p).feed = s.feed ∧
    (s.leaveLead t p).segs = s.segs ∧ (s.leaveLead t p).pool = s.pool ∧ (s.leaveLead t p).table = s.table ∧
    (s.leaveLead t p).decoder = s.decoder ∧ (s.leaveLead t p).screener = s.screener ∧
    (s.leaveLead t p).screens = s.screens ∧ (s.leaveLead t p).monitor = s.monitor ∧
    (s.leaveLead t p).stamps = s.stamps ∧ (s.leaveLead t p).arbiter = s.arbiter ∧
    (s.leaveLead t p).memory = s.memory ∧ (s.leaveLead t p).pending = s.pending := by
  unfold State.leaveLead
  repeat' (first | split | (dsimp only; split))
  all_goals simp

@[simp] theorem settleLead_frame (s : State) :
    (s.settleLead).pins = s.pins ∧ (s.settleLead).link = s.link ∧ (s.settleLead).feed = s.feed ∧
    (s.settleLead).segs = s.segs ∧ (s.settleLead).pool = s.pool ∧ (s.settleLead).table = s.table ∧
    (s.settleLead).decoder = s.decoder ∧ (s.settleLead).screener = s.screener ∧ (s.settleLead).screens = s.screens ∧
    (s.settleLead).monitor = s.monitor ∧ (s.settleLead).stamps = s.stamps ∧ (s.settleLead).arbiter = s.arbiter ∧
    (s.settleLead).memory = s.memory ∧ (s.settleLead).pending = s.pending := by
  unfold State.settleLead
  repeat' (first | split | (dsimp only; split))
  all_goals simp

@[simp] theorem takeHead_frame (s : State) :
    (s.takeHead).pins = s.pins ∧ (s.takeHead).feed = s.feed ∧ (s.takeHead).segs = s.segs ∧
    (s.takeHead).pool = s.pool ∧ (s.takeHead).decoder = s.decoder ∧ (s.takeHead).screener = s.screener ∧
    (s.takeHead).screens = s.screens ∧ (s.takeHead).stamps = s.stamps ∧ (s.takeHead).arbiter = s.arbiter ∧
    (s.takeHead).memory = s.memory ∧ (s.takeHead).pending = s.pending := by
  unfold State.takeHead
  repeat' (first | split | (dsimp only; split))
  all_goals simp

@[simp] theorem closeRecord_frame (s : State) (id : Nat) (e : Episode) (v : Nat) :
    (s.closeRecord id e v).pins = s.pins ∧ (s.closeRecord id e v).link = s.link ∧
    (s.closeRecord id e v).feed = s.feed ∧ (s.closeRecord id e v).segs = s.segs ∧
    (s.closeRecord id e v).pool = s.pool ∧ (s.closeRecord id e v).decoder = s.decoder ∧
    (s.closeRecord id e v).screener = s.screener ∧ (s.closeRecord id e v).screens = s.screens ∧
    (s.closeRecord id e v).engine = s.engine ∧ (s.closeRecord id e v).monitor = s.monitor ∧
    (s.closeRecord id e v).marks = s.marks ∧ (s.closeRecord id e v).stamps = s.stamps ∧
    (s.closeRecord id e v).arbiter = s.arbiter ∧ (s.closeRecord id e v).memory = s.memory ∧
    (s.closeRecord id e v).pending = s.pending := by
  unfold State.closeRecord
  repeat' (first | split | (dsimp only; split))
  all_goals simp

@[simp] theorem closeEpisodes_frame (s : State) :
    (s.closeEpisodes).pins = s.pins ∧ (s.closeEpisodes).link = s.link ∧ (s.closeEpisodes).feed = s.feed ∧
    (s.closeEpisodes).segs = s.segs ∧ (s.closeEpisodes).pool = s.pool ∧ (s.closeEpisodes).decoder = s.decoder ∧
    (s.closeEpisodes).screener = s.screener ∧ (s.closeEpisodes).screens = s.screens ∧
    (s.closeEpisodes).engine = s.engine ∧ (s.closeEpisodes).marks = s.marks ∧ (s.closeEpisodes).stamps = s.stamps ∧
    (s.closeEpisodes).arbiter = s.arbiter ∧ (s.closeEpisodes).memory = s.memory ∧
    (s.closeEpisodes).pending = s.pending := by
  unfold State.closeEpisodes
  split
  · simp [beams, List.foldl]
  · simp

@[simp] theorem laserOff_frame (s : State) :
    (s.laserOff).link = s.link ∧ (s.laserOff).feed = s.feed ∧ (s.laserOff).segs = s.segs ∧
    (s.laserOff).pool = s.pool ∧ (s.laserOff).table = s.table ∧ (s.laserOff).decoder = s.decoder ∧
    (s.laserOff).screener = s.screener ∧ (s.laserOff).screens = s.screens ∧ (s.laserOff).engine = s.engine ∧
    (s.laserOff).monitor = s.monitor ∧ (s.laserOff).marks = s.marks ∧ (s.laserOff).stamps = s.stamps ∧
    (s.laserOff).arbiter = s.arbiter ∧ (s.laserOff).memory = s.memory ∧ (s.laserOff).pending = s.pending := by
  unfold State.laserOff
  repeat' (first | split | (dsimp only; split))
  all_goals simp

@[simp] theorem stopEngine_frame (s : State) :
    (s.stopEngine).link = s.link ∧ (s.stopEngine).feed = s.feed ∧ (s.stopEngine).segs = s.segs ∧
    (s.stopEngine).pool = s.pool ∧ (s.stopEngine).decoder = s.decoder ∧ (s.stopEngine).screener = s.screener ∧
    (s.stopEngine).screens = s.screens ∧ (s.stopEngine).stamps = s.stamps ∧ (s.stopEngine).arbiter = s.arbiter ∧
    (s.stopEngine).memory = s.memory ∧ (s.stopEngine).pending = s.pending := by
  unfold State.stopEngine
  repeat' (first | split | (dsimp only; split))
  all_goals simp

@[simp] theorem enterIdle_frame (s : State) :
    (s.enterIdle).pins = s.pins ∧ (s.enterIdle).link = s.link ∧ (s.enterIdle).feed = s.feed ∧
    (s.enterIdle).segs = s.segs ∧ (s.enterIdle).pool = s.pool ∧ (s.enterIdle).table = s.table ∧
    (s.enterIdle).decoder = s.decoder ∧ (s.enterIdle).screener = s.screener ∧ (s.enterIdle).screens = s.screens ∧
    (s.enterIdle).monitor = s.monitor ∧ (s.enterIdle).marks = s.marks ∧ (s.enterIdle).stamps = s.stamps ∧
    (s.enterIdle).arbiter = s.arbiter ∧ (s.enterIdle).memory = s.memory ∧ (s.enterIdle).pending = s.pending := by
  unfold State.enterIdle
  repeat' (first | split | (dsimp only; split))
  all_goals simp

@[simp] theorem endPlate_frame (s : State) (p : Plate) (x : PlateState) (c : Bool) :
    (s.endPlate p x c).pins = s.pins ∧ (s.endPlate p x c).decoder = s.decoder ∧
    (s.endPlate p x c).screener = s.screener ∧ (s.endPlate p x c).engine = s.engine ∧
    (s.endPlate p x c).monitor = s.monitor ∧ (s.endPlate p x c).marks = s.marks ∧
    (s.endPlate p x c).stamps = s.stamps ∧ (s.endPlate p x c).memory = s.memory ∧
    (s.endPlate p x c).pending = s.pending := by
  unfold State.endPlate
  repeat' (first | split | (dsimp only; split))
  all_goals simp

@[simp] theorem faultPlate_frame (s : State) (p : Plate) (c : Bool) :
    (s.faultPlate p c).pins = s.pins ∧ (s.faultPlate p c).decoder = s.decoder ∧
    (s.faultPlate p c).screener = s.screener ∧ (s.faultPlate p c).engine = s.engine ∧
    (s.faultPlate p c).monitor = s.monitor ∧ (s.faultPlate p c).marks = s.marks ∧
    (s.faultPlate p c).stamps = s.stamps ∧ (s.faultPlate p c).memory = s.memory ∧
    (s.faultPlate p c).pending = s.pending := by
  unfold State.faultPlate
  repeat' (first | split | (dsimp only; split))
  all_goals simp

@[simp] theorem drumFault_frame (s : State) (c : DrumCause) :
    (s.drumFault c).decoder = s.decoder ∧ (s.drumFault c).screener = s.screener ∧ (s.drumFault c).stamps = s.stamps ∧
    (s.drumFault c).memory = s.memory ∧ (s.drumFault c).pending = s.pending := by
  unfold State.drumFault
  repeat' (first | split | (dsimp only; split))
  all_goals simp

@[simp] theorem endCopyBands_frame (s : State) (p : Plate) (c : Bool) :
    (s.endCopyBands p c).pins = s.pins ∧ (s.endCopyBands p c).link = s.link ∧ (s.endCopyBands p c).feed = s.feed ∧
    (s.endCopyBands p c).segs = s.segs ∧ (s.endCopyBands p c).decoder = s.decoder ∧
    (s.endCopyBands p c).screener = s.screener ∧ (s.endCopyBands p c).screens = s.screens ∧
    (s.endCopyBands p c).engine = s.engine ∧ (s.endCopyBands p c).monitor = s.monitor ∧
    (s.endCopyBands p c).marks = s.marks ∧ (s.endCopyBands p c).stamps = s.stamps ∧
    (s.endCopyBands p c).arbiter = s.arbiter ∧ (s.endCopyBands p c).memory = s.memory ∧
    (s.endCopyBands p c).pending = s.pending := by
  unfold State.endCopyBands
  repeat' (first | split | (dsimp only; split))
  all_goals simp

@[simp] theorem endCopy_frame (s : State) (t : Taken) (p : Plate) :
    (s.endCopy t p).feed = s.feed ∧ (s.endCopy t p).segs = s.segs ∧ (s.endCopy t p).decoder = s.decoder ∧
    (s.endCopy t p).screener = s.screener ∧ (s.endCopy t p).screens = s.screens ∧ (s.endCopy t p).stamps = s.stamps ∧
    (s.endCopy t p).arbiter = s.arbiter ∧ (s.endCopy t p).memory = s.memory ∧ (s.endCopy t p).pending = s.pending := by
  unfold State.endCopy
  repeat' (first | split | (dsimp only; split))
  all_goals simp

/-! ### Plates -/

@[simp] theorem addPlate_frame (s : State) (p : Plate) :
    (s.addPlate p).pins = s.pins ∧ (s.addPlate p).feed = s.feed ∧ (s.addPlate p).segs = s.segs ∧
    (s.addPlate p).pool = s.pool ∧ (s.addPlate p).decoder = s.decoder ∧ (s.addPlate p).screener = s.screener ∧
    (s.addPlate p).screens = s.screens ∧ (s.addPlate p).engine = s.engine ∧ (s.addPlate p).monitor = s.monitor ∧
    (s.addPlate p).marks = s.marks ∧ (s.addPlate p).stamps = s.stamps ∧ (s.addPlate p).arbiter = s.arbiter ∧
    (s.addPlate p).memory = s.memory ∧ (s.addPlate p).pending = s.pending := by
  unfold State.addPlate
  repeat' (first | split | (dsimp only; split))
  all_goals simp

@[simp] theorem removePlate_frame (s : State) (id : Nat) :
    (s.removePlate id).pins = s.pins ∧ (s.removePlate id).link = s.link ∧ (s.removePlate id).feed = s.feed ∧
    (s.removePlate id).pool = s.pool ∧ (s.removePlate id).screens = s.screens ∧
    (s.removePlate id).engine = s.engine ∧ (s.removePlate id).monitor = s.monitor ∧
    (s.removePlate id).marks = s.marks ∧ (s.removePlate id).stamps = s.stamps ∧
    (s.removePlate id).arbiter = s.arbiter ∧ (s.removePlate id).memory = s.memory ∧
    (s.removePlate id).pending = s.pending := by
  unfold State.removePlate
  repeat' (first | split | (dsimp only; split))
  all_goals simp

@[simp] theorem abortPlate_frame (s : State) (p : Plate) :
    (s.abortPlate p).decoder = s.decoder ∧ (s.abortPlate p).screener = s.screener ∧
    (s.abortPlate p).stamps = s.stamps ∧ (s.abortPlate p).memory = s.memory ∧ (s.abortPlate p).pending = s.pending := by
  unfold State.abortPlate
  repeat' (first | split | (dsimp only; split))
  all_goals simp

@[simp] theorem plateDefine_frame (s : State) (m : Message) :
    (plateDefine m s).pins = s.pins ∧ (plateDefine m s).feed = s.feed ∧ (plateDefine m s).segs = s.segs ∧
    (plateDefine m s).pool = s.pool ∧ (plateDefine m s).decoder = s.decoder ∧
    (plateDefine m s).screener = s.screener ∧ (plateDefine m s).screens = s.screens ∧
    (plateDefine m s).engine = s.engine ∧ (plateDefine m s).monitor = s.monitor ∧ (plateDefine m s).marks = s.marks ∧
    (plateDefine m s).stamps = s.stamps ∧ (plateDefine m s).arbiter = s.arbiter ∧
    (plateDefine m s).memory = s.memory ∧ (plateDefine m s).pending = s.pending := by
  unfold plateDefine
  repeat' (first | split | (dsimp only; split))
  all_goals simp

@[simp] theorem plateRelease_frame (s : State) (m : Message) :
    (plateRelease m s).pins = s.pins ∧ (plateRelease m s).feed = s.feed ∧ (plateRelease m s).pool = s.pool ∧
    (plateRelease m s).screens = s.screens ∧ (plateRelease m s).engine = s.engine ∧
    (plateRelease m s).monitor = s.monitor ∧ (plateRelease m s).marks = s.marks ∧
    (plateRelease m s).stamps = s.stamps ∧ (plateRelease m s).arbiter = s.arbiter ∧
    (plateRelease m s).memory = s.memory ∧ (plateRelease m s).pending = s.pending := by
  unfold plateRelease
  repeat' (first | split | (dsimp only; split))
  all_goals simp

@[simp] theorem plateAbort_frame (s : State) (m : Message) :
    (plateAbort m s).decoder = s.decoder ∧ (plateAbort m s).screener = s.screener ∧
    (plateAbort m s).stamps = s.stamps ∧ (plateAbort m s).memory = s.memory ∧ (plateAbort m s).pending = s.pending := by
  unfold plateAbort
  repeat' (first | split | (dsimp only; split))
  all_goals simp

@[simp] theorem bandQuery_frame (s : State) (m : Message) :
    (bandQuery m s).pins = s.pins ∧ (bandQuery m s).feed = s.feed ∧ (bandQuery m s).segs = s.segs ∧
    (bandQuery m s).pool = s.pool ∧ (bandQuery m s).table = s.table ∧ (bandQuery m s).decoder = s.decoder ∧
    (bandQuery m s).screener = s.screener ∧ (bandQuery m s).screens = s.screens ∧ (bandQuery m s).engine = s.engine ∧
    (bandQuery m s).monitor = s.monitor ∧ (bandQuery m s).marks = s.marks ∧ (bandQuery m s).stamps = s.stamps ∧
    (bandQuery m s).arbiter = s.arbiter ∧ (bandQuery m s).memory = s.memory ∧ (bandQuery m s).pending = s.pending := by
  unfold bandQuery
  repeat' (first | split | (dsimp only; split))
  all_goals simp

/-! ### FeedLine -/

@[simp] theorem frameStart_frame (s : State) (k : Byte) (n : Nat) :
    (s.frameStart k n).pins = s.pins ∧ (s.frameStart k n).link = s.link ∧ (s.frameStart k n).segs = s.segs ∧
    (s.frameStart k n).pool = s.pool ∧ (s.frameStart k n).table = s.table ∧ (s.frameStart k n).decoder = s.decoder ∧
    (s.frameStart k n).screener = s.screener ∧ (s.frameStart k n).screens = s.screens ∧
    (s.frameStart k n).engine = s.engine ∧ (s.frameStart k n).monitor = s.monitor ∧
    (s.frameStart k n).marks = s.marks ∧ (s.frameStart k n).stamps = s.stamps ∧
    (s.frameStart k n).arbiter = s.arbiter ∧ (s.frameStart k n).memory = s.memory ∧
    (s.frameStart k n).pending = s.pending := by
  unfold State.frameStart
  repeat' (first | split | (dsimp only; split))
  all_goals simp

@[simp] theorem count_frame (s : State) (f : Counters → Counters) :
    (s.count f).pins = s.pins ∧ (s.count f).link = s.link ∧ (s.count f).segs = s.segs ∧ (s.count f).pool = s.pool ∧
    (s.count f).table = s.table ∧ (s.count f).decoder = s.decoder ∧ (s.count f).screener = s.screener ∧
    (s.count f).screens = s.screens ∧ (s.count f).engine = s.engine ∧ (s.count f).monitor = s.monitor ∧
    (s.count f).marks = s.marks ∧ (s.count f).stamps = s.stamps ∧ (s.count f).arbiter = s.arbiter ∧
    (s.count f).memory = s.memory ∧ (s.count f).pending = s.pending := by
  unfold State.count
  repeat' (first | split | (dsimp only; split))
  all_goals simp

@[simp] theorem setIntake_frame (s : State) (i : Intake) :
    (s.setIntake i).pins = s.pins ∧ (s.setIntake i).link = s.link ∧ (s.setIntake i).segs = s.segs ∧
    (s.setIntake i).pool = s.pool ∧ (s.setIntake i).table = s.table ∧ (s.setIntake i).decoder = s.decoder ∧
    (s.setIntake i).screener = s.screener ∧ (s.setIntake i).screens = s.screens ∧ (s.setIntake i).engine = s.engine ∧
    (s.setIntake i).monitor = s.monitor ∧ (s.setIntake i).marks = s.marks ∧ (s.setIntake i).stamps = s.stamps ∧
    (s.setIntake i).arbiter = s.arbiter ∧ (s.setIntake i).memory = s.memory ∧ (s.setIntake i).pending = s.pending := by
  unfold State.setIntake
  repeat' (first | split | (dsimp only; split))
  all_goals simp

@[simp] theorem refuseOpen_frame (s : State) (r : RawHeader) (x : Refuse) :
    (s.refuseOpen r x).pins = s.pins ∧ (s.refuseOpen r x).segs = s.segs ∧ (s.refuseOpen r x).pool = s.pool ∧
    (s.refuseOpen r x).decoder = s.decoder ∧ (s.refuseOpen r x).screener = s.screener ∧
    (s.refuseOpen r x).screens = s.screens ∧ (s.refuseOpen r x).engine = s.engine ∧
    (s.refuseOpen r x).monitor = s.monitor ∧ (s.refuseOpen r x).marks = s.marks ∧
    (s.refuseOpen r x).stamps = s.stamps ∧ (s.refuseOpen r x).arbiter = s.arbiter ∧
    (s.refuseOpen r x).memory = s.memory ∧ (s.refuseOpen r x).pending = s.pending := by
  unfold State.refuseOpen
  repeat' (first | split | (dsimp only; split))
  all_goals simp

@[simp] theorem acceptOpen_frame (s : State) (h : Header) :
    (s.acceptOpen h).pins = s.pins ∧ (s.acceptOpen h).link = s.link ∧ (s.acceptOpen h).pool = s.pool ∧
    (s.acceptOpen h).table = s.table ∧ (s.acceptOpen h).decoder = s.decoder ∧
    (s.acceptOpen h).screener = s.screener ∧ (s.acceptOpen h).engine = s.engine ∧
    (s.acceptOpen h).monitor = s.monitor ∧ (s.acceptOpen h).marks = s.marks ∧ (s.acceptOpen h).stamps = s.stamps ∧
    (s.acceptOpen h).arbiter = s.arbiter ∧ (s.acceptOpen h).memory = s.memory ∧
    (s.acceptOpen h).pending = s.pending := by
  unfold State.acceptOpen
  repeat' (first | split | (dsimp only; split))
  all_goals simp

@[simp] theorem tryOpen_frame (s : State) (r : RawHeader) :
    (s.tryOpen r).pins = s.pins ∧ (s.tryOpen r).pool = s.pool ∧ (s.tryOpen r).decoder = s.decoder ∧
    (s.tryOpen r).screener = s.screener ∧ (s.tryOpen r).engine = s.engine ∧ (s.tryOpen r).monitor = s.monitor ∧
    (s.tryOpen r).marks = s.marks ∧ (s.tryOpen r).stamps = s.stamps ∧ (s.tryOpen r).arbiter = s.arbiter ∧
    (s.tryOpen r).memory = s.memory ∧ (s.tryOpen r).pending = s.pending := by
  unfold State.tryOpen
  repeat' (first | split | (dsimp only; split))
  all_goals simp

@[simp] theorem stray_frame (s : State) :
    (s.stray).pins = s.pins ∧ (s.stray).link = s.link ∧ (s.stray).segs = s.segs ∧ (s.stray).pool = s.pool ∧
    (s.stray).table = s.table ∧ (s.stray).decoder = s.decoder ∧ (s.stray).screener = s.screener ∧
    (s.stray).screens = s.screens ∧ (s.stray).engine = s.engine ∧ (s.stray).monitor = s.monitor ∧
    (s.stray).marks = s.marks ∧ (s.stray).stamps = s.stamps ∧ (s.stray).arbiter = s.arbiter ∧
    (s.stray).memory = s.memory ∧ (s.stray).pending = s.pending := by
  unfold State.stray
  repeat' (first | split | (dsimp only; split))
  all_goals simp

@[simp] theorem completeSegment_frame (s : State) :
    (s.completeSegment).pins = s.pins ∧ (s.completeSegment).link = s.link ∧ (s.completeSegment).pool = s.pool ∧
    (s.completeSegment).table = s.table ∧ (s.completeSegment).decoder = s.decoder ∧
    (s.completeSegment).screener = s.screener ∧ (s.completeSegment).screens = s.screens ∧
    (s.completeSegment).engine = s.engine ∧ (s.completeSegment).monitor = s.monitor ∧
    (s.completeSegment).marks = s.marks ∧ (s.completeSegment).stamps = s.stamps ∧
    (s.completeSegment).arbiter = s.arbiter ∧ (s.completeSegment).memory = s.memory ∧
    (s.completeSegment).pending = s.pending := by
  unfold State.completeSegment
  repeat' (first | split | (dsimp only; split))
  all_goals simp

@[simp] theorem takeSelect_frame (s : State) (b : List Byte) :
    (takeSelect b s).pins = s.pins ∧ (takeSelect b s).pool = s.pool ∧ (takeSelect b s).table = s.table ∧
    (takeSelect b s).decoder = s.decoder ∧ (takeSelect b s).screener = s.screener ∧
    (takeSelect b s).engine = s.engine ∧ (takeSelect b s).monitor = s.monitor ∧ (takeSelect b s).marks = s.marks ∧
    (takeSelect b s).stamps = s.stamps ∧ (takeSelect b s).memory = s.memory ∧ (takeSelect b s).pending = s.pending := by
  unfold takeSelect
  repeat' (first | split | (dsimp only; split))
  all_goals simp

@[simp] theorem takeOpen_frame (s : State) (b : List Byte) :
    (takeOpen b s).pins = s.pins ∧ (takeOpen b s).pool = s.pool ∧ (takeOpen b s).decoder = s.decoder ∧
    (takeOpen b s).screener = s.screener ∧ (takeOpen b s).engine = s.engine ∧ (takeOpen b s).monitor = s.monitor ∧
    (takeOpen b s).marks = s.marks ∧ (takeOpen b s).stamps = s.stamps ∧ (takeOpen b s).memory = s.memory ∧
    (takeOpen b s).pending = s.pending := by
  unfold takeOpen
  repeat' (first | split | (dsimp only; split))
  all_goals simp

@[simp] theorem takeData_frame (s : State) (b : List Byte) :
    (takeData b s).pins = s.pins ∧ (takeData b s).pool = s.pool ∧ (takeData b s).table = s.table ∧
    (takeData b s).decoder = s.decoder ∧ (takeData b s).screener = s.screener ∧ (takeData b s).engine = s.engine ∧
    (takeData b s).monitor = s.monitor ∧ (takeData b s).marks = s.marks ∧ (takeData b s).stamps = s.stamps ∧
    (takeData b s).memory = s.memory ∧ (takeData b s).pending = s.pending := by
  unfold takeData
  repeat' (first | split | (dsimp only; split))
  all_goals simp

@[simp] theorem takeClose_frame (s : State) (b : List Byte) :
    (takeClose b s).pins = s.pins ∧ (takeClose b s).pool = s.pool ∧ (takeClose b s).table = s.table ∧
    (takeClose b s).decoder = s.decoder ∧ (takeClose b s).screener = s.screener ∧ (takeClose b s).engine = s.engine ∧
    (takeClose b s).monitor = s.monitor ∧ (takeClose b s).marks = s.marks ∧ (takeClose b s).stamps = s.stamps ∧
    (takeClose b s).memory = s.memory ∧ (takeClose b s).pending = s.pending := by
  unfold takeClose
  repeat' (first | split | (dsimp only; split))
  all_goals simp

@[simp] theorem takeBadFrame_frame (s : State) (k : Byte) :
    (takeBadFrame k s).pins = s.pins ∧ (takeBadFrame k s).pool = s.pool ∧ (takeBadFrame k s).table = s.table ∧
    (takeBadFrame k s).decoder = s.decoder ∧ (takeBadFrame k s).screener = s.screener ∧
    (takeBadFrame k s).engine = s.engine ∧ (takeBadFrame k s).monitor = s.monitor ∧
    (takeBadFrame k s).marks = s.marks ∧ (takeBadFrame k s).stamps = s.stamps ∧
    (takeBadFrame k s).memory = s.memory ∧ (takeBadFrame k s).pending = s.pending := by
  unfold takeBadFrame
  repeat' (first | split | (dsimp only; split))
  all_goals simp

@[simp] theorem takeLoss_frame (s : State) :
    (takeLoss s).pins = s.pins ∧ (takeLoss s).pool = s.pool ∧ (takeLoss s).table = s.table ∧
    (takeLoss s).decoder = s.decoder ∧ (takeLoss s).screener = s.screener ∧ (takeLoss s).engine = s.engine ∧
    (takeLoss s).monitor = s.monitor ∧ (takeLoss s).marks = s.marks ∧ (takeLoss s).stamps = s.stamps ∧
    (takeLoss s).memory = s.memory ∧ (takeLoss s).pending = s.pending := by
  unfold takeLoss
  repeat' (first | split | (dsimp only; split))
  all_goals simp

@[simp] theorem feedClear_frame (s : State) (m : Message) :
    (feedClear m s).pins = s.pins ∧ (feedClear m s).segs = s.segs ∧ (feedClear m s).pool = s.pool ∧
    (feedClear m s).table = s.table ∧ (feedClear m s).decoder = s.decoder ∧ (feedClear m s).screener = s.screener ∧
    (feedClear m s).screens = s.screens ∧ (feedClear m s).engine = s.engine ∧ (feedClear m s).monitor = s.monitor ∧
    (feedClear m s).marks = s.marks ∧ (feedClear m s).stamps = s.stamps ∧ (feedClear m s).arbiter = s.arbiter ∧
    (feedClear m s).memory = s.memory ∧ (feedClear m s).pending = s.pending := by
  unfold feedClear
  repeat' (first | split | (dsimp only; split))
  all_goals simp

/-! ### Screening -/

@[simp] theorem setScreen_frame (s : State) (n : Nat) (x : ScreenState) :
    (s.setScreen n x).pins = s.pins ∧ (s.setScreen n x).link = s.link ∧ (s.setScreen n x).feed = s.feed ∧
    (s.setScreen n x).segs = s.segs ∧ (s.setScreen n x).pool = s.pool ∧ (s.setScreen n x).table = s.table ∧
    (s.setScreen n x).decoder = s.decoder ∧ (s.setScreen n x).screener = s.screener ∧
    (s.setScreen n x).engine = s.engine ∧ (s.setScreen n x).monitor = s.monitor ∧ (s.setScreen n x).marks = s.marks ∧
    (s.setScreen n x).stamps = s.stamps ∧ (s.setScreen n x).arbiter = s.arbiter ∧
    (s.setScreen n x).memory = s.memory ∧ (s.setScreen n x).pending = s.pending := by
  unfold State.setScreen
  repeat' (first | split | (dsimp only; split))
  all_goals simp

@[simp] theorem tableBurstDone_frame (s : State) (n : Nat) :
    (s.tableBurstDone n).pins = s.pins ∧ (s.tableBurstDone n).feed = s.feed ∧ (s.tableBurstDone n).segs = s.segs ∧
    (s.tableBurstDone n).pool = s.pool ∧ (s.tableBurstDone n).table = s.table ∧
    (s.tableBurstDone n).decoder = s.decoder ∧ (s.tableBurstDone n).screener = s.screener ∧
    (s.tableBurstDone n).engine = s.engine ∧ (s.tableBurstDone n).monitor = s.monitor ∧
    (s.tableBurstDone n).marks = s.marks ∧ (s.tableBurstDone n).stamps = s.stamps ∧
    (s.tableBurstDone n).arbiter = s.arbiter ∧ (s.tableBurstDone n).memory = s.memory ∧
    (s.tableBurstDone n).pending = s.pending := by
  unfold State.tableBurstDone
  repeat' (first | split | (dsimp only; split))
  all_goals simp

@[simp] theorem screenBegin_frame (s : State) (m : Message) :
    (screenBegin m s).pins = s.pins ∧ (screenBegin m s).feed = s.feed ∧ (screenBegin m s).segs = s.segs ∧
    (screenBegin m s).pool = s.pool ∧ (screenBegin m s).table = s.table ∧ (screenBegin m s).decoder = s.decoder ∧
    (screenBegin m s).screener = s.screener ∧ (screenBegin m s).engine = s.engine ∧
    (screenBegin m s).monitor = s.monitor ∧ (screenBegin m s).marks = s.marks ∧ (screenBegin m s).stamps = s.stamps ∧
    (screenBegin m s).arbiter = s.arbiter ∧ (screenBegin m s).memory = s.memory ∧
    (screenBegin m s).pending = s.pending := by
  unfold screenBegin
  repeat' (first | split | (dsimp only; split))
  all_goals simp

@[simp] theorem screenTable_frame (s : State) (m : Message) :
    (screenTable m s).pins = s.pins ∧ (screenTable m s).feed = s.feed ∧ (screenTable m s).segs = s.segs ∧
    (screenTable m s).pool = s.pool ∧ (screenTable m s).table = s.table ∧ (screenTable m s).decoder = s.decoder ∧
    (screenTable m s).screener = s.screener ∧ (screenTable m s).screens = s.screens ∧
    (screenTable m s).engine = s.engine ∧ (screenTable m s).monitor = s.monitor ∧ (screenTable m s).marks = s.marks ∧
    (screenTable m s).stamps = s.stamps ∧ (screenTable m s).arbiter = s.arbiter ∧
    (screenTable m s).memory = s.memory ∧ (screenTable m s).pending = s.pending := by
  unfold screenTable
  repeat' (first | split | (dsimp only; split))
  all_goals simp

@[simp] theorem screenEnd_frame (s : State) (m : Message) :
    (screenEnd m s).pins = s.pins ∧ (screenEnd m s).feed = s.feed ∧ (screenEnd m s).segs = s.segs ∧
    (screenEnd m s).pool = s.pool ∧ (screenEnd m s).table = s.table ∧ (screenEnd m s).decoder = s.decoder ∧
    (screenEnd m s).screener = s.screener ∧ (screenEnd m s).engine = s.engine ∧ (screenEnd m s).monitor = s.monitor ∧
    (screenEnd m s).marks = s.marks ∧ (screenEnd m s).stamps = s.stamps ∧ (screenEnd m s).arbiter = s.arbiter ∧
    (screenEnd m s).memory = s.memory ∧ (screenEnd m s).pending = s.pending := by
  unfold screenEnd
  repeat' (first | split | (dsimp only; split))
  all_goals simp

/-! ### Render -/

@[simp] theorem beginWork_frame (s : State) (k : Work) :
    (s.beginWork k).pins = s.pins ∧ (s.beginWork k).link = s.link ∧ (s.beginWork k).feed = s.feed ∧
    (s.beginWork k).segs = s.segs ∧ (s.beginWork k).pool = s.pool ∧ (s.beginWork k).table = s.table ∧
    (s.beginWork k).screens = s.screens ∧ (s.beginWork k).engine = s.engine ∧ (s.beginWork k).monitor = s.monitor ∧
    (s.beginWork k).marks = s.marks ∧ (s.beginWork k).stamps = s.stamps ∧ (s.beginWork k).arbiter = s.arbiter ∧
    (s.beginWork k).memory = s.memory ∧ (s.beginWork k).pending = s.pending := by
  unfold State.beginWork
  repeat' (first | split | (dsimp only; split))
  all_goals simp

@[simp] theorem giveEntry_frame (s : State) (p : Plate) (e : Entry) (n : Nat) (l : List Nat) :
    (s.giveEntry p e n l).pins = s.pins ∧ (s.giveEntry p e n l).link = s.link ∧ (s.giveEntry p e n l).feed = s.feed ∧
    (s.giveEntry p e n l).screens = s.screens ∧ (s.giveEntry p e n l).engine = s.engine ∧
    (s.giveEntry p e n l).monitor = s.monitor ∧ (s.giveEntry p e n l).marks = s.marks ∧
    (s.giveEntry p e n l).stamps = s.stamps ∧ (s.giveEntry p e n l).arbiter = s.arbiter ∧
    (s.giveEntry p e n l).memory = s.memory ∧ (s.giveEntry p e n l).pending = s.pending := by
  unfold State.giveEntry
  repeat' (first | split | (dsimp only; split))
  all_goals simp

@[simp] theorem startRender_frame (s : State) (e : Entry) :
    (s.startRender e).pins = s.pins ∧ (s.startRender e).link = s.link ∧ (s.startRender e).feed = s.feed ∧
    (s.startRender e).screens = s.screens ∧ (s.startRender e).engine = s.engine ∧
    (s.startRender e).monitor = s.monitor ∧ (s.startRender e).marks = s.marks ∧ (s.startRender e).stamps = s.stamps ∧
    (s.startRender e).arbiter = s.arbiter ∧ (s.startRender e).memory = s.memory ∧
    (s.startRender e).pending = s.pending := by
  unfold State.startRender
  repeat' (first | split | (dsimp only; split))
  all_goals simp

@[simp] theorem renderDamage_frame (s : State) (p : Plate) (h : Header) (c : Cause) (a b : Nat) :
    (s.renderDamage p h c a b).pins = s.pins ∧ (s.renderDamage p h c a b).feed = s.feed ∧
    (s.renderDamage p h c a b).segs = s.segs ∧ (s.renderDamage p h c a b).pool = s.pool ∧
    (s.renderDamage p h c a b).decoder = s.decoder ∧ (s.renderDamage p h c a b).screener = s.screener ∧
    (s.renderDamage p h c a b).screens = s.screens ∧ (s.renderDamage p h c a b).engine = s.engine ∧
    (s.renderDamage p h c a b).monitor = s.monitor ∧ (s.renderDamage p h c a b).marks = s.marks ∧
    (s.renderDamage p h c a b).stamps = s.stamps ∧ (s.renderDamage p h c a b).arbiter = s.arbiter ∧
    (s.renderDamage p h c a b).memory = s.memory ∧ (s.renderDamage p h c a b).pending = s.pending := by
  unfold State.renderDamage
  repeat' (first | split | (dsimp only; split))
  all_goals simp

@[simp] theorem codeRecord_frame (s : State) (k : Work) (e : Nat) :
    (s.codeRecord k e).pins = s.pins ∧ (s.codeRecord k e).feed = s.feed ∧ (s.codeRecord k e).segs = s.segs ∧
    (s.codeRecord k e).pool = s.pool ∧ (s.codeRecord k e).decoder = s.decoder ∧
    (s.codeRecord k e).screener = s.screener ∧ (s.codeRecord k e).screens = s.screens ∧
    (s.codeRecord k e).engine = s.engine ∧ (s.codeRecord k e).monitor = s.monitor ∧
    (s.codeRecord k e).marks = s.marks ∧ (s.codeRecord k e).stamps = s.stamps ∧
    (s.codeRecord k e).arbiter = s.arbiter ∧ (s.codeRecord k e).memory = s.memory ∧
    (s.codeRecord k e).pending = s.pending := by
  unfold State.codeRecord
  repeat' (first | split | (dsimp only; split))
  all_goals simp

@[simp] theorem contentRecord_frame (s : State) (k : Work) :
    (s.contentRecord k).pins = s.pins ∧ (s.contentRecord k).feed = s.feed ∧ (s.contentRecord k).segs = s.segs ∧
    (s.contentRecord k).pool = s.pool ∧ (s.contentRecord k).decoder = s.decoder ∧
    (s.contentRecord k).screener = s.screener ∧ (s.contentRecord k).screens = s.screens ∧
    (s.contentRecord k).engine = s.engine ∧ (s.contentRecord k).monitor = s.monitor ∧
    (s.contentRecord k).marks = s.marks ∧ (s.contentRecord k).stamps = s.stamps ∧
    (s.contentRecord k).arbiter = s.arbiter ∧ (s.contentRecord k).memory = s.memory ∧
    (s.contentRecord k).pending = s.pending := by
  unfold State.contentRecord
  repeat' (first | split | (dsimp only; split))
  all_goals simp

@[simp] theorem stepDecoder_frame (s : State) (d e : Decode) :
    (s.stepDecoder d e).pins = s.pins ∧ (s.stepDecoder d e).feed = s.feed ∧ (s.stepDecoder d e).segs = s.segs ∧
    (s.stepDecoder d e).pool = s.pool ∧ (s.stepDecoder d e).screener = s.screener ∧
    (s.stepDecoder d e).screens = s.screens ∧ (s.stepDecoder d e).engine = s.engine ∧
    (s.stepDecoder d e).monitor = s.monitor ∧ (s.stepDecoder d e).marks = s.marks ∧
    (s.stepDecoder d e).stamps = s.stamps ∧ (s.stepDecoder d e).arbiter = s.arbiter ∧
    (s.stepDecoder d e).memory = s.memory ∧ (s.stepDecoder d e).pending = s.pending := by
  unfold State.stepDecoder
  repeat' (first | split | (dsimp only; split))
  all_goals simp

@[simp] theorem tellReady_frame (s : State) (a b : Nat) :
    (s.tellReady a b).pins = s.pins ∧ (s.tellReady a b).feed = s.feed ∧ (s.tellReady a b).segs = s.segs ∧
    (s.tellReady a b).pool = s.pool ∧ (s.tellReady a b).table = s.table ∧ (s.tellReady a b).decoder = s.decoder ∧
    (s.tellReady a b).screener = s.screener ∧ (s.tellReady a b).screens = s.screens ∧
    (s.tellReady a b).engine = s.engine ∧ (s.tellReady a b).monitor = s.monitor ∧ (s.tellReady a b).marks = s.marks ∧
    (s.tellReady a b).stamps = s.stamps ∧ (s.tellReady a b).arbiter = s.arbiter ∧
    (s.tellReady a b).memory = s.memory ∧ (s.tellReady a b).pending = s.pending := by
  unfold State.tellReady
  repeat' (first | split | (dsimp only; split))
  all_goals simp

@[simp] theorem advanceBand_frame (s : State) (p : Plate) (b : Band) (h : Header) :
    (s.advanceBand p b h).pins = s.pins ∧ (s.advanceBand p b h).feed = s.feed ∧ (s.advanceBand p b h).segs = s.segs ∧
    (s.advanceBand p b h).pool = s.pool ∧ (s.advanceBand p b h).decoder = s.decoder ∧
    (s.advanceBand p b h).screener = s.screener ∧ (s.advanceBand p b h).screens = s.screens ∧
    (s.advanceBand p b h).engine = s.engine ∧ (s.advanceBand p b h).monitor = s.monitor ∧
    (s.advanceBand p b h).marks = s.marks ∧ (s.advanceBand p b h).stamps = s.stamps ∧
    (s.advanceBand p b h).arbiter = s.arbiter ∧ (s.advanceBand p b h).memory = s.memory ∧
    (s.advanceBand p b h).pending = s.pending := by
  unfold State.advanceBand
  repeat' (first | split | (dsimp only; split))
  all_goals simp

@[simp] theorem discardResult_frame (s : State) (k : Work) :
    (s.discardResult k).pins = s.pins ∧ (s.discardResult k).link = s.link ∧ (s.discardResult k).feed = s.feed ∧
    (s.discardResult k).segs = s.segs ∧ (s.discardResult k).decoder = s.decoder ∧
    (s.discardResult k).screener = s.screener ∧ (s.discardResult k).screens = s.screens ∧
    (s.discardResult k).engine = s.engine ∧ (s.discardResult k).monitor = s.monitor ∧
    (s.discardResult k).marks = s.marks ∧ (s.discardResult k).stamps = s.stamps ∧
    (s.discardResult k).arbiter = s.arbiter ∧ (s.discardResult k).memory = s.memory ∧
    (s.discardResult k).pending = s.pending := by
  unfold State.discardResult
  repeat' (first | split | (dsimp only; split))
  all_goals simp

@[simp] theorem freeRenderer_frame (s : State) (k : SegKind) :
    (s.freeRenderer k).pins = s.pins ∧ (s.freeRenderer k).link = s.link ∧ (s.freeRenderer k).feed = s.feed ∧
    (s.freeRenderer k).segs = s.segs ∧ (s.freeRenderer k).pool = s.pool ∧ (s.freeRenderer k).table = s.table ∧
    (s.freeRenderer k).screens = s.screens ∧ (s.freeRenderer k).engine = s.engine ∧
    (s.freeRenderer k).monitor = s.monitor ∧ (s.freeRenderer k).marks = s.marks ∧
    (s.freeRenderer k).stamps = s.stamps ∧ (s.freeRenderer k).arbiter = s.arbiter ∧
    (s.freeRenderer k).memory = s.memory ∧ (s.freeRenderer k).pending = s.pending := by
  unfold State.freeRenderer
  repeat' (first | split | (dsimp only; split))
  all_goals simp

@[simp] theorem countClipped_frame (s : State) (id : Nat) :
    (s.countClipped id).pins = s.pins ∧ (s.countClipped id).link = s.link ∧ (s.countClipped id).feed = s.feed ∧
    (s.countClipped id).segs = s.segs ∧ (s.countClipped id).pool = s.pool ∧ (s.countClipped id).decoder = s.decoder ∧
    (s.countClipped id).screener = s.screener ∧ (s.countClipped id).screens = s.screens ∧
    (s.countClipped id).engine = s.engine ∧ (s.countClipped id).monitor = s.monitor ∧
    (s.countClipped id).marks = s.marks ∧ (s.countClipped id).stamps = s.stamps ∧
    (s.countClipped id).arbiter = s.arbiter ∧ (s.countClipped id).memory = s.memory ∧
    (s.countClipped id).pending = s.pending := by
  unfold State.countClipped
  repeat' (first | split | (dsimp only; split))
  all_goals simp

@[simp] theorem endRenderCore_frame (s : State) (d : SegKind) (k : Work) :
    (s.endRenderCore d k).pins = s.pins ∧ (s.endRenderCore d k).engine = s.engine ∧
    (s.endRenderCore d k).monitor = s.monitor ∧ (s.endRenderCore d k).marks = s.marks ∧
    (s.endRenderCore d k).stamps = s.stamps ∧ (s.endRenderCore d k).arbiter = s.arbiter ∧
    (s.endRenderCore d k).memory = s.memory ∧ (s.endRenderCore d k).pending = s.pending := by
  unfold State.endRenderCore
  repeat' (first | split | (dsimp only; split))
  all_goals simp

@[simp] theorem endRender_frame (s : State) (d : SegKind) (k : Work) :
    (s.endRender d k).pins = s.pins ∧ (s.endRender d k).monitor = s.monitor ∧ (s.endRender d k).stamps = s.stamps ∧
    (s.endRender d k).arbiter = s.arbiter ∧ (s.endRender d k).memory = s.memory ∧
    (s.endRender d k).pending = s.pending := by
  unfold State.endRender
  repeat' (first | split | (dsimp only; split))
  all_goals simp

@[simp] theorem endDecode_frame (s : State) (d : Decode) :
    (endDecode d s).pins = s.pins ∧ (endDecode d s).monitor = s.monitor ∧ (endDecode d s).stamps = s.stamps ∧
    (endDecode d s).arbiter = s.arbiter ∧ (endDecode d s).memory = s.memory ∧ (endDecode d s).pending = s.pending := by
  unfold endDecode
  repeat' (first | split | (dsimp only; split))
  all_goals simp

/-! ### Fetch -/

@[simp] theorem discardLate_frame (s : State) (id b c : Nat) :
    (s.discardLate id b c).pins = s.pins ∧ (s.discardLate id b c).feed = s.feed ∧
    (s.discardLate id b c).pool = s.pool ∧ (s.discardLate id b c).decoder = s.decoder ∧
    (s.discardLate id b c).screener = s.screener ∧ (s.discardLate id b c).engine = s.engine ∧
    (s.discardLate id b c).monitor = s.monitor ∧ (s.discardLate id b c).marks = s.marks ∧
    (s.discardLate id b c).stamps = s.stamps ∧ (s.discardLate id b c).arbiter = s.arbiter ∧
    (s.discardLate id b c).memory = s.memory ∧ (s.discardLate id b c).pending = s.pending := by
  unfold State.discardLate
  repeat' (first | split | (dsimp only; split))
  all_goals simp

@[simp] theorem starve_frame (s : State) (p : Plate) (c b : Nat) (x : Band) :
    (s.starve p c b x).pins = s.pins ∧ (s.starve p c b x).decoder = s.decoder ∧
    (s.starve p c b x).screener = s.screener ∧ (s.starve p c b x).engine = s.engine ∧
    (s.starve p c b x).monitor = s.monitor ∧ (s.starve p c b x).stamps = s.stamps ∧
    (s.starve p c b x).memory = s.memory ∧ (s.starve p c b x).pending = s.pending := by
  unfold State.starve
  repeat' (first | split | (dsimp only; split))
  all_goals simp

@[simp] theorem markDamaged_frame (s : State) (p : Plate) (b : Nat) :
    (s.markDamaged p b).pins = s.pins ∧ (s.markDamaged p b).link = s.link ∧ (s.markDamaged p b).feed = s.feed ∧
    (s.markDamaged p b).segs = s.segs ∧ (s.markDamaged p b).pool = s.pool ∧ (s.markDamaged p b).table = s.table ∧
    (s.markDamaged p b).decoder = s.decoder ∧ (s.markDamaged p b).screener = s.screener ∧
    (s.markDamaged p b).screens = s.screens ∧ (s.markDamaged p b).engine = s.engine ∧
    (s.markDamaged p b).monitor = s.monitor ∧ (s.markDamaged p b).stamps = s.stamps ∧
    (s.markDamaged p b).arbiter = s.arbiter ∧ (s.markDamaged p b).memory = s.memory ∧
    (s.markDamaged p b).pending = s.pending := by
  unfold State.markDamaged
  repeat' (first | split | (dsimp only; split))
  all_goals simp

@[simp] theorem markStarved_frame (s : State) (p : Plate) (b : Nat) :
    (s.markStarved p b).pins = s.pins ∧ (s.markStarved p b).link = s.link ∧ (s.markStarved p b).feed = s.feed ∧
    (s.markStarved p b).segs = s.segs ∧ (s.markStarved p b).pool = s.pool ∧ (s.markStarved p b).table = s.table ∧
    (s.markStarved p b).decoder = s.decoder ∧ (s.markStarved p b).screener = s.screener ∧
    (s.markStarved p b).screens = s.screens ∧ (s.markStarved p b).engine = s.engine ∧
    (s.markStarved p b).monitor = s.monitor ∧ (s.markStarved p b).stamps = s.stamps ∧
    (s.markStarved p b).arbiter = s.arbiter ∧ (s.markStarved p b).memory = s.memory ∧
    (s.markStarved p b).pending = s.pending := by
  unfold State.markStarved
  repeat' (first | split | (dsimp only; split))
  all_goals simp

@[simp] theorem decideBand_frame (s : State) (b : Nat) :
    (s.decideBand b).pins = s.pins ∧ (s.decideBand b).decoder = s.decoder ∧ (s.decideBand b).screener = s.screener ∧
    (s.decideBand b).engine = s.engine ∧ (s.decideBand b).monitor = s.monitor ∧ (s.decideBand b).stamps = s.stamps ∧
    (s.decideBand b).memory = s.memory ∧ (s.decideBand b).pending = s.pending := by
  unfold State.decideBand
  repeat' (first | split | (dsimp only; split))
  all_goals simp

@[simp] theorem endBandFetch_frame (s : State) (p : Plate) (c b : Nat) :
    (s.endBandFetch p c b).pins = s.pins ∧ (s.endBandFetch p c b).link = s.link ∧
    (s.endBandFetch p c b).feed = s.feed ∧ (s.endBandFetch p c b).segs = s.segs ∧
    (s.endBandFetch p c b).decoder = s.decoder ∧ (s.endBandFetch p c b).screener = s.screener ∧
    (s.endBandFetch p c b).screens = s.screens ∧ (s.endBandFetch p c b).engine = s.engine ∧
    (s.endBandFetch p c b).monitor = s.monitor ∧ (s.endBandFetch p c b).marks = s.marks ∧
    (s.endBandFetch p c b).stamps = s.stamps ∧ (s.endBandFetch p c b).arbiter = s.arbiter ∧
    (s.endBandFetch p c b).memory = s.memory ∧ (s.endBandFetch p c b).pending = s.pending := by
  unfold State.endBandFetch
  repeat' (first | split | (dsimp only; split))
  all_goals simp

@[simp] theorem passLine_frame (s : State) (p c l : Nat) :
    (s.passLine p c l).pins = s.pins ∧ (s.passLine p c l).link = s.link ∧ (s.passLine p c l).feed = s.feed ∧
    (s.passLine p c l).segs = s.segs ∧ (s.passLine p c l).decoder = s.decoder ∧
    (s.passLine p c l).screener = s.screener ∧ (s.passLine p c l).screens = s.screens ∧
    (s.passLine p c l).monitor = s.monitor ∧ (s.passLine p c l).marks = s.marks ∧
    (s.passLine p c l).stamps = s.stamps ∧ (s.passLine p c l).arbiter = s.arbiter ∧
    (s.passLine p c l).memory = s.memory ∧ (s.passLine p c l).pending = s.pending := by
  unfold State.passLine
  repeat' (first | split | (dsimp only; split))
  all_goals simp

@[simp] theorem produceLine_frame (s : State) (t : Taken) (p : Plate) (l : Nat) :
    (s.produceLine t p l).pins = s.pins ∧ (s.produceLine t p l).link = s.link ∧ (s.produceLine t p l).feed = s.feed ∧
    (s.produceLine t p l).segs = s.segs ∧ (s.produceLine t p l).decoder = s.decoder ∧
    (s.produceLine t p l).screener = s.screener ∧ (s.produceLine t p l).screens = s.screens ∧
    (s.produceLine t p l).monitor = s.monitor ∧ (s.produceLine t p l).marks = s.marks ∧
    (s.produceLine t p l).stamps = s.stamps ∧ (s.produceLine t p l).arbiter = s.arbiter ∧
    (s.produceLine t p l).memory = s.memory ∧ (s.produceLine t p l).pending = s.pending := by
  unfold State.produceLine
  repeat' (first | split | (dsimp only; split))
  all_goals simp

@[simp] theorem beginLine_frame (s : State) (l : Nat) :
    (s.beginLine l).pins = s.pins ∧ (s.beginLine l).decoder = s.decoder ∧ (s.beginLine l).screener = s.screener ∧
    (s.beginLine l).monitor = s.monitor ∧ (s.beginLine l).stamps = s.stamps ∧ (s.beginLine l).memory = s.memory ∧
    (s.beginLine l).pending = s.pending := by
  unfold State.beginLine
  repeat' (first | split | (dsimp only; split))
  all_goals simp

@[simp] theorem endRead_frame (s : State) (r : FetchRead) :
    (s.endRead r).pins = s.pins ∧ (s.endRead r).link = s.link ∧ (s.endRead r).feed = s.feed ∧
    (s.endRead r).segs = s.segs ∧ (s.endRead r).decoder = s.decoder ∧ (s.endRead r).screener = s.screener ∧
    (s.endRead r).screens = s.screens ∧ (s.endRead r).monitor = s.monitor ∧ (s.endRead r).marks = s.marks ∧
    (s.endRead r).stamps = s.stamps ∧ (s.endRead r).arbiter = s.arbiter ∧ (s.endRead r).memory = s.memory ∧
    (s.endRead r).pending = s.pending := by
  unfold State.endRead
  repeat' (first | split | (dsimp only; split))
  all_goals simp

@[simp] theorem fetchBurstDone_frame (s : State) (b : List Byte) :
    (s.fetchBurstDone b).pins = s.pins ∧ (s.fetchBurstDone b).link = s.link ∧ (s.fetchBurstDone b).feed = s.feed ∧
    (s.fetchBurstDone b).segs = s.segs ∧ (s.fetchBurstDone b).decoder = s.decoder ∧
    (s.fetchBurstDone b).screener = s.screener ∧ (s.fetchBurstDone b).screens = s.screens ∧
    (s.fetchBurstDone b).monitor = s.monitor ∧ (s.fetchBurstDone b).marks = s.marks ∧
    (s.fetchBurstDone b).stamps = s.stamps ∧ (s.fetchBurstDone b).arbiter = s.arbiter ∧
    (s.fetchBurstDone b).memory = s.memory ∧ (s.fetchBurstDone b).pending = s.pending := by
  unfold State.fetchBurstDone
  repeat' (first | split | (dsimp only; split))
  all_goals simp

/-! ### Marks -/

@[simp] theorem setRun_frame (s : State) (r : UnderrunRun) :
    (s.setRun r).pins = s.pins ∧ (s.setRun r).link = s.link ∧ (s.setRun r).feed = s.feed ∧
    (s.setRun r).segs = s.segs ∧ (s.setRun r).pool = s.pool ∧ (s.setRun r).table = s.table ∧
    (s.setRun r).decoder = s.decoder ∧ (s.setRun r).screener = s.screener ∧ (s.setRun r).screens = s.screens ∧
    (s.setRun r).engine = s.engine ∧ (s.setRun r).monitor = s.monitor ∧ (s.setRun r).stamps = s.stamps ∧
    (s.setRun r).arbiter = s.arbiter ∧ (s.setRun r).memory = s.memory ∧ (s.setRun r).pending = s.pending := by
  unfold State.setRun
  repeat' (first | split | (dsimp only; split))
  all_goals simp

@[simp] theorem newUnderrun_frame (s : State) (p : Plate) (c sw : Nat) :
    (s.newUnderrun p c sw).pins = s.pins ∧ (s.newUnderrun p c sw).feed = s.feed ∧
    (s.newUnderrun p c sw).segs = s.segs ∧ (s.newUnderrun p c sw).pool = s.pool ∧
    (s.newUnderrun p c sw).decoder = s.decoder ∧ (s.newUnderrun p c sw).screener = s.screener ∧
    (s.newUnderrun p c sw).screens = s.screens ∧ (s.newUnderrun p c sw).engine = s.engine ∧
    (s.newUnderrun p c sw).monitor = s.monitor ∧ (s.newUnderrun p c sw).stamps = s.stamps ∧
    (s.newUnderrun p c sw).arbiter = s.arbiter ∧ (s.newUnderrun p c sw).memory = s.memory ∧
    (s.newUnderrun p c sw).pending = s.pending := by
  unfold State.newUnderrun
  repeat' (first | split | (dsimp only; split))
  all_goals simp

@[simp] theorem mergeUnderrun_frame (s : State) (p : Plate) (r : UnderrunRun) (sw : Nat) :
    (s.mergeUnderrun p r sw).pins = s.pins ∧ (s.mergeUnderrun p r sw).link = s.link ∧
    (s.mergeUnderrun p r sw).feed = s.feed ∧ (s.mergeUnderrun p r sw).segs = s.segs ∧
    (s.mergeUnderrun p r sw).pool = s.pool ∧ (s.mergeUnderrun p r sw).decoder = s.decoder ∧
    (s.mergeUnderrun p r sw).screener = s.screener ∧ (s.mergeUnderrun p r sw).screens = s.screens ∧
    (s.mergeUnderrun p r sw).engine = s.engine ∧ (s.mergeUnderrun p r sw).monitor = s.monitor ∧
    (s.mergeUnderrun p r sw).stamps = s.stamps ∧ (s.mergeUnderrun p r sw).arbiter = s.arbiter ∧
    (s.mergeUnderrun p r sw).memory = s.memory ∧ (s.mergeUnderrun p r sw).pending = s.pending := by
  unfold State.mergeUnderrun
  repeat' (first | split | (dsimp only; split))
  all_goals simp

@[simp] theorem noteUnderrun_frame (s : State) (p : Plate) (c sw : Nat) :
    (s.noteUnderrun p c sw).pins = s.pins ∧ (s.noteUnderrun p c sw).feed = s.feed ∧
    (s.noteUnderrun p c sw).segs = s.segs ∧ (s.noteUnderrun p c sw).pool = s.pool ∧
    (s.noteUnderrun p c sw).decoder = s.decoder ∧ (s.noteUnderrun p c sw).screener = s.screener ∧
    (s.noteUnderrun p c sw).screens = s.screens ∧ (s.noteUnderrun p c sw).engine = s.engine ∧
    (s.noteUnderrun p c sw).monitor = s.monitor ∧ (s.noteUnderrun p c sw).stamps = s.stamps ∧
    (s.noteUnderrun p c sw).arbiter = s.arbiter ∧ (s.noteUnderrun p c sw).memory = s.memory ∧
    (s.noteUnderrun p c sw).pending = s.pending := by
  unfold State.noteUnderrun
  repeat' (first | split | (dsimp only; split))
  all_goals simp

@[simp] theorem setSignature_frame (s : State) (p : Plate) (c b l : Nat) (x : Crc32) :
    (s.setSignature p c b l x).pins = s.pins ∧ (s.setSignature p c b l x).feed = s.feed ∧
    (s.setSignature p c b l x).segs = s.segs ∧ (s.setSignature p c b l x).pool = s.pool ∧
    (s.setSignature p c b l x).decoder = s.decoder ∧ (s.setSignature p c b l x).screener = s.screener ∧
    (s.setSignature p c b l x).screens = s.screens ∧ (s.setSignature p c b l x).engine = s.engine ∧
    (s.setSignature p c b l x).monitor = s.monitor ∧ (s.setSignature p c b l x).stamps = s.stamps ∧
    (s.setSignature p c b l x).arbiter = s.arbiter ∧ (s.setSignature p c b l x).memory = s.memory ∧
    (s.setSignature p c b l x).pending = s.pending := by
  unfold State.setSignature
  repeat' (first | split | (dsimp only; split))
  all_goals simp

@[simp] theorem feedLine_frame (s : State) (p : Plate) (c l : Nat) (b : List Byte) :
    (s.feedLine p c l b).pins = s.pins ∧ (s.feedLine p c l b).feed = s.feed ∧ (s.feedLine p c l b).segs = s.segs ∧
    (s.feedLine p c l b).pool = s.pool ∧ (s.feedLine p c l b).decoder = s.decoder ∧
    (s.feedLine p c l b).screener = s.screener ∧ (s.feedLine p c l b).screens = s.screens ∧
    (s.feedLine p c l b).engine = s.engine ∧ (s.feedLine p c l b).monitor = s.monitor ∧
    (s.feedLine p c l b).stamps = s.stamps ∧ (s.feedLine p c l b).arbiter = s.arbiter ∧
    (s.feedLine p c l b).memory = s.memory ∧ (s.feedLine p c l b).pending = s.pending := by
  unfold State.feedLine
  repeat' (first | split | (dsimp only; split))
  all_goals simp

@[simp] theorem laneStep_frame (s : State) (a b : Nat) :
    (s.laneStep a b).pins = s.pins ∧ (s.laneStep a b).link = s.link ∧ (s.laneStep a b).feed = s.feed ∧
    (s.laneStep a b).segs = s.segs ∧ (s.laneStep a b).pool = s.pool ∧ (s.laneStep a b).decoder = s.decoder ∧
    (s.laneStep a b).screener = s.screener ∧ (s.laneStep a b).screens = s.screens ∧
    (s.laneStep a b).engine = s.engine ∧ (s.laneStep a b).monitor = s.monitor ∧ (s.laneStep a b).stamps = s.stamps ∧
    (s.laneStep a b).arbiter = s.arbiter ∧ (s.laneStep a b).memory = s.memory ∧
    (s.laneStep a b).pending = s.pending := by
  unfold State.laneStep
  repeat' (first | split | (dsimp only; split))
  all_goals simp

@[simp] theorem feedLines_frame (p : Plate) (c n : Nat) (l : List (List Byte)) (s : State) :
    (feedLines p c n l s).pins = s.pins ∧ (feedLines p c n l s).feed = s.feed ∧ (feedLines p c n l s).segs = s.segs ∧
    (feedLines p c n l s).pool = s.pool ∧ (feedLines p c n l s).decoder = s.decoder ∧
    (feedLines p c n l s).screener = s.screener ∧ (feedLines p c n l s).screens = s.screens ∧
    (feedLines p c n l s).engine = s.engine ∧ (feedLines p c n l s).monitor = s.monitor ∧
    (feedLines p c n l s).stamps = s.stamps ∧ (feedLines p c n l s).arbiter = s.arbiter ∧
    (feedLines p c n l s).memory = s.memory ∧ (feedLines p c n l s).pending = s.pending := by
  induction l generalizing s n with
  | nil => simp [feedLines]
  | cons a rest ih =>
    unfold feedLines
    split
    · simpa using ih (n + 1) (s.feedLine p c n a)
    · exact ih (n + 1) s

@[simp] theorem handSwath_frame (s : State) (t : Taken) (p : Plate) (sw : Nat) (u : Bool) (l : List (List Byte)) :
    (s.handSwath t p sw u l).feed = s.feed ∧ (s.handSwath t p sw u l).segs = s.segs ∧
    (s.handSwath t p sw u l).pool = s.pool ∧ (s.handSwath t p sw u l).decoder = s.decoder ∧
    (s.handSwath t p sw u l).screener = s.screener ∧ (s.handSwath t p sw u l).screens = s.screens ∧
    (s.handSwath t p sw u l).engine = s.engine ∧ (s.handSwath t p sw u l).monitor = s.monitor ∧
    (s.handSwath t p sw u l).stamps = s.stamps ∧ (s.handSwath t p sw u l).arbiter = s.arbiter ∧
    (s.handSwath t p sw u l).memory = s.memory ∧ (s.handSwath t p sw u l).pending = s.pending := by
  unfold State.handSwath
  repeat' (first | split | (dsimp only; split))
  all_goals simp

@[simp] theorem stampLoad_frame (s : State) (m : Message) :
    (stampLoad m s).pins = s.pins ∧ (stampLoad m s).feed = s.feed ∧ (stampLoad m s).segs = s.segs ∧
    (stampLoad m s).pool = s.pool ∧ (stampLoad m s).table = s.table ∧ (stampLoad m s).decoder = s.decoder ∧
    (stampLoad m s).screener = s.screener ∧ (stampLoad m s).screens = s.screens ∧ (stampLoad m s).engine = s.engine ∧
    (stampLoad m s).monitor = s.monitor ∧ (stampLoad m s).marks = s.marks ∧ (stampLoad m s).arbiter = s.arbiter ∧
    (stampLoad m s).memory = s.memory ∧ (stampLoad m s).pending = s.pending := by
  unfold stampLoad
  repeat' (first | split | (dsimp only; split))
  all_goals simp

@[simp] theorem plateReport_frame (s : State) (m : Message) :
    (plateReport m s).pins = s.pins ∧ (plateReport m s).feed = s.feed ∧ (plateReport m s).segs = s.segs ∧
    (plateReport m s).pool = s.pool ∧ (plateReport m s).table = s.table ∧ (plateReport m s).decoder = s.decoder ∧
    (plateReport m s).screener = s.screener ∧ (plateReport m s).screens = s.screens ∧
    (plateReport m s).engine = s.engine ∧ (plateReport m s).monitor = s.monitor ∧ (plateReport m s).marks = s.marks ∧
    (plateReport m s).stamps = s.stamps ∧ (plateReport m s).arbiter = s.arbiter ∧
    (plateReport m s).memory = s.memory ∧ (plateReport m s).pending = s.pending := by
  unfold plateReport
  repeat' (first | split | (dsimp only; split))
  all_goals simp

/-! ### Monitor -/

@[simp] theorem beginStep_frame (s : State) (x : Step) :
    (s.beginStep x).pins = s.pins ∧ (s.beginStep x).link = s.link ∧ (s.beginStep x).feed = s.feed ∧
    (s.beginStep x).segs = s.segs ∧ (s.beginStep x).pool = s.pool ∧ (s.beginStep x).table = s.table ∧
    (s.beginStep x).decoder = s.decoder ∧ (s.beginStep x).screener = s.screener ∧
    (s.beginStep x).screens = s.screens ∧ (s.beginStep x).engine = s.engine ∧ (s.beginStep x).marks = s.marks ∧
    (s.beginStep x).stamps = s.stamps ∧ (s.beginStep x).arbiter = s.arbiter ∧ (s.beginStep x).memory = s.memory ∧
    (s.beginStep x).pending = s.pending := by
  unfold State.beginStep
  repeat' (first | split | (dsimp only; split))
  all_goals simp

@[simp] theorem refGap_frame (s : State) :
    (s.refGap).pins = s.pins ∧ (s.refGap).link = s.link ∧ (s.refGap).feed = s.feed ∧ (s.refGap).segs = s.segs ∧
    (s.refGap).pool = s.pool ∧ (s.refGap).table = s.table ∧ (s.refGap).decoder = s.decoder ∧
    (s.refGap).screener = s.screener ∧ (s.refGap).screens = s.screens ∧ (s.refGap).engine = s.engine ∧
    (s.refGap).marks = s.marks ∧ (s.refGap).stamps = s.stamps ∧ (s.refGap).arbiter = s.arbiter ∧
    (s.refGap).memory = s.memory ∧ (s.refGap).pending = s.pending := by
  unfold State.refGap
  repeat' (first | split | (dsimp only; split))
  all_goals simp

@[simp] theorem beamGap_frame (s : State) (k : Fin 4) :
    (s.beamGap k).pins = s.pins ∧ (s.beamGap k).link = s.link ∧ (s.beamGap k).feed = s.feed ∧
    (s.beamGap k).segs = s.segs ∧ (s.beamGap k).pool = s.pool ∧ (s.beamGap k).table = s.table ∧
    (s.beamGap k).decoder = s.decoder ∧ (s.beamGap k).screener = s.screener ∧ (s.beamGap k).screens = s.screens ∧
    (s.beamGap k).engine = s.engine ∧ (s.beamGap k).marks = s.marks ∧ (s.beamGap k).stamps = s.stamps ∧
    (s.beamGap k).arbiter = s.arbiter ∧ (s.beamGap k).memory = s.memory ∧ (s.beamGap k).pending = s.pending := by
  unfold State.beamGap
  repeat' (first | split | (dsimp only; split))
  all_goals simp

@[simp] theorem openGap_frame (s : State) :
    (s.openGap).pins = s.pins ∧ (s.openGap).link = s.link ∧ (s.openGap).feed = s.feed ∧ (s.openGap).segs = s.segs ∧
    (s.openGap).pool = s.pool ∧ (s.openGap).table = s.table ∧ (s.openGap).decoder = s.decoder ∧
    (s.openGap).screener = s.screener ∧ (s.openGap).screens = s.screens ∧ (s.openGap).engine = s.engine ∧
    (s.openGap).marks = s.marks ∧ (s.openGap).stamps = s.stamps ∧ (s.openGap).arbiter = s.arbiter ∧
    (s.openGap).memory = s.memory ∧ (s.openGap).pending = s.pending := by
  unfold State.openGap
  repeat' (first | split | (dsimp only; split))
  all_goals simp

@[simp] theorem blindFailure_frame (s : State) (t : Taken) (p : Plate) (o : RefOutcome) (n : Nat) :
    (s.blindFailure t p o n).pins = s.pins ∧ (s.blindFailure t p o n).feed = s.feed ∧
    (s.blindFailure t p o n).segs = s.segs ∧ (s.blindFailure t p o n).pool = s.pool ∧
    (s.blindFailure t p o n).decoder = s.decoder ∧ (s.blindFailure t p o n).screener = s.screener ∧
    (s.blindFailure t p o n).screens = s.screens ∧ (s.blindFailure t p o n).engine = s.engine ∧
    (s.blindFailure t p o n).stamps = s.stamps ∧ (s.blindFailure t p o n).arbiter = s.arbiter ∧
    (s.blindFailure t p o n).memory = s.memory ∧ (s.blindFailure t p o n).pending = s.pending := by
  unfold State.blindFailure
  repeat' (first | split | (dsimp only; split))
  all_goals simp

@[simp] theorem blindSuccess_frame (s : State) (p : Plate) :
    (s.blindSuccess p).pins = s.pins ∧ (s.blindSuccess p).link = s.link ∧ (s.blindSuccess p).feed = s.feed ∧
    (s.blindSuccess p).segs = s.segs ∧ (s.blindSuccess p).pool = s.pool ∧ (s.blindSuccess p).decoder = s.decoder ∧
    (s.blindSuccess p).screener = s.screener ∧ (s.blindSuccess p).screens = s.screens ∧
    (s.blindSuccess p).engine = s.engine ∧ (s.blindSuccess p).marks = s.marks ∧
    (s.blindSuccess p).stamps = s.stamps ∧ (s.blindSuccess p).arbiter = s.arbiter ∧
    (s.blindSuccess p).memory = s.memory ∧ (s.blindSuccess p).pending = s.pending := by
  unfold State.blindSuccess
  repeat' (first | split | (dsimp only; split))
  all_goals simp

@[simp] theorem setPower_frame (s : State) (k : Fin 4) (e : Episode) :
    (s.setPower k e).pins = s.pins ∧ (s.setPower k e).link = s.link ∧ (s.setPower k e).feed = s.feed ∧
    (s.setPower k e).segs = s.segs ∧ (s.setPower k e).pool = s.pool ∧ (s.setPower k e).table = s.table ∧
    (s.setPower k e).decoder = s.decoder ∧ (s.setPower k e).screener = s.screener ∧
    (s.setPower k e).screens = s.screens ∧ (s.setPower k e).engine = s.engine ∧ (s.setPower k e).marks = s.marks ∧
    (s.setPower k e).stamps = s.stamps ∧ (s.setPower k e).arbiter = s.arbiter ∧ (s.setPower k e).memory = s.memory ∧
    (s.setPower k e).pending = s.pending := by
  unfold State.setPower
  repeat' (first | split | (dsimp only; split))
  all_goals simp

@[simp] theorem judgeEpisode_frame (s : State) (t : Taken) (p : Plate) (k : Fin 4) (x : BeamStatus) (y : Option Nat) :
    (s.judgeEpisode t p k x y).pins = s.pins ∧ (s.judgeEpisode t p k x y).feed = s.feed ∧
    (s.judgeEpisode t p k x y).segs = s.segs ∧ (s.judgeEpisode t p k x y).pool = s.pool ∧
    (s.judgeEpisode t p k x y).decoder = s.decoder ∧ (s.judgeEpisode t p k x y).screener = s.screener ∧
    (s.judgeEpisode t p k x y).screens = s.screens ∧ (s.judgeEpisode t p k x y).engine = s.engine ∧
    (s.judgeEpisode t p k x y).stamps = s.stamps ∧ (s.judgeEpisode t p k x y).arbiter = s.arbiter ∧
    (s.judgeEpisode t p k x y).memory = s.memory ∧ (s.judgeEpisode t p k x y).pending = s.pending := by
  unfold State.judgeEpisode
  repeat' (first | split | (dsimp only; split))
  all_goals simp

@[simp] theorem judge_frame (s : State) (k : Fin 4) (x : BeamStatus) (y : Option Nat) :
    (s.judge k x y).pins = s.pins ∧ (s.judge k x y).feed = s.feed ∧ (s.judge k x y).segs = s.segs ∧
    (s.judge k x y).pool = s.pool ∧ (s.judge k x y).decoder = s.decoder ∧ (s.judge k x y).screener = s.screener ∧
    (s.judge k x y).screens = s.screens ∧ (s.judge k x y).engine = s.engine ∧ (s.judge k x y).stamps = s.stamps ∧
    (s.judge k x y).arbiter = s.arbiter ∧ (s.judge k x y).memory = s.memory ∧ (s.judge k x y).pending = s.pending := by
  unfold State.judge
  repeat' (first | split | (dsimp only; split))
  all_goals simp

@[simp] theorem scanRef_frame (s : State) :
    (s.scanRef).pins = s.pins ∧ (s.scanRef).link = s.link ∧ (s.scanRef).feed = s.feed ∧ (s.scanRef).segs = s.segs ∧
    (s.scanRef).pool = s.pool ∧ (s.scanRef).table = s.table ∧ (s.scanRef).decoder = s.decoder ∧
    (s.scanRef).screener = s.screener ∧ (s.scanRef).screens = s.screens ∧ (s.scanRef).engine = s.engine ∧
    (s.scanRef).marks = s.marks ∧ (s.scanRef).stamps = s.stamps ∧ (s.scanRef).arbiter = s.arbiter ∧
    (s.scanRef).memory = s.memory ∧ (s.scanRef).pending = s.pending := by
  unfold State.scanRef
  repeat' (first | split | (dsimp only; split))
  all_goals simp

@[simp] theorem scanNext_frame (s : State) :
    (s.scanNext).pins = s.pins ∧ (s.scanNext).link = s.link ∧ (s.scanNext).feed = s.feed ∧
    (s.scanNext).segs = s.segs ∧ (s.scanNext).pool = s.pool ∧ (s.scanNext).table = s.table ∧
    (s.scanNext).decoder = s.decoder ∧ (s.scanNext).screener = s.screener ∧ (s.scanNext).screens = s.screens ∧
    (s.scanNext).engine = s.engine ∧ (s.scanNext).marks = s.marks ∧ (s.scanNext).stamps = s.stamps ∧
    (s.scanNext).arbiter = s.arbiter ∧ (s.scanNext).memory = s.memory ∧ (s.scanNext).pending = s.pending := by
  unfold State.scanNext
  repeat' (first | split | (dsimp only; split))
  all_goals simp

@[simp] theorem judgeRef_frame (s : State) (o : RefOutcome) (n : Nat) :
    (s.judgeRef o n).pins = s.pins ∧ (s.judgeRef o n).feed = s.feed ∧ (s.judgeRef o n).segs = s.segs ∧
    (s.judgeRef o n).pool = s.pool ∧ (s.judgeRef o n).decoder = s.decoder ∧ (s.judgeRef o n).screener = s.screener ∧
    (s.judgeRef o n).screens = s.screens ∧ (s.judgeRef o n).engine = s.engine ∧ (s.judgeRef o n).stamps = s.stamps ∧
    (s.judgeRef o n).arbiter = s.arbiter ∧ (s.judgeRef o n).memory = s.memory ∧
    (s.judgeRef o n).pending = s.pending := by
  unfold State.judgeRef
  repeat' (first | split | (dsimp only; split))
  all_goals simp

@[simp] theorem scanAfterRef_frame (s : State) (o : RefOutcome) :
    (s.scanAfterRef o).pins = s.pins ∧ (s.scanAfterRef o).feed = s.feed ∧ (s.scanAfterRef o).segs = s.segs ∧
    (s.scanAfterRef o).pool = s.pool ∧ (s.scanAfterRef o).table = s.table ∧ (s.scanAfterRef o).decoder = s.decoder ∧
    (s.scanAfterRef o).screener = s.screener ∧ (s.scanAfterRef o).screens = s.screens ∧
    (s.scanAfterRef o).engine = s.engine ∧ (s.scanAfterRef o).marks = s.marks ∧
    (s.scanAfterRef o).stamps = s.stamps ∧ (s.scanAfterRef o).arbiter = s.arbiter ∧
    (s.scanAfterRef o).memory = s.memory ∧ (s.scanAfterRef o).pending = s.pending := by
  unfold State.scanAfterRef
  repeat' (first | split | (dsimp only; split))
  all_goals simp

@[simp] theorem endRef_frame (s : State) (o : RefOutcome) (a b : Nat) :
    (s.endRef o a b).pins = s.pins ∧ (s.endRef o a b).feed = s.feed ∧ (s.endRef o a b).segs = s.segs ∧
    (s.endRef o a b).pool = s.pool ∧ (s.endRef o a b).decoder = s.decoder ∧ (s.endRef o a b).screener = s.screener ∧
    (s.endRef o a b).screens = s.screens ∧ (s.endRef o a b).engine = s.engine ∧ (s.endRef o a b).stamps = s.stamps ∧
    (s.endRef o a b).arbiter = s.arbiter ∧ (s.endRef o a b).memory = s.memory ∧
    (s.endRef o a b).pending = s.pending := by
  unfold State.endRef
  repeat' (first | split | (dsimp only; split))
  all_goals simp

@[simp] theorem scanAfterBeam_frame (s : State) (k : Fin 4) (x : BeamStatus) (y z : Option Nat) (a b : Nat) :
    (s.scanAfterBeam k x y z a b).pins = s.pins ∧ (s.scanAfterBeam k x y z a b).feed = s.feed ∧
    (s.scanAfterBeam k x y z a b).segs = s.segs ∧ (s.scanAfterBeam k x y z a b).pool = s.pool ∧
    (s.scanAfterBeam k x y z a b).table = s.table ∧ (s.scanAfterBeam k x y z a b).decoder = s.decoder ∧
    (s.scanAfterBeam k x y z a b).screener = s.screener ∧ (s.scanAfterBeam k x y z a b).screens = s.screens ∧
    (s.scanAfterBeam k x y z a b).engine = s.engine ∧ (s.scanAfterBeam k x y z a b).marks = s.marks ∧
    (s.scanAfterBeam k x y z a b).stamps = s.stamps ∧ (s.scanAfterBeam k x y z a b).arbiter = s.arbiter ∧
    (s.scanAfterBeam k x y z a b).memory = s.memory ∧ (s.scanAfterBeam k x y z a b).pending = s.pending := by
  unfold State.scanAfterBeam
  repeat' (first | split | (dsimp only; split))
  all_goals simp

@[simp] theorem endBeam_frame (s : State) (k : Fin 4) (a b : Nat) (y : Option Nat) :
    (s.endBeam k a b y).pins = s.pins ∧ (s.endBeam k a b y).feed = s.feed ∧ (s.endBeam k a b y).segs = s.segs ∧
    (s.endBeam k a b y).pool = s.pool ∧ (s.endBeam k a b y).decoder = s.decoder ∧
    (s.endBeam k a b y).screener = s.screener ∧ (s.endBeam k a b y).screens = s.screens ∧
    (s.endBeam k a b y).engine = s.engine ∧ (s.endBeam k a b y).stamps = s.stamps ∧
    (s.endBeam k a b y).arbiter = s.arbiter ∧ (s.endBeam k a b y).memory = s.memory ∧
    (s.endBeam k a b y).pending = s.pending := by
  unfold State.endBeam
  repeat' (first | split | (dsimp only; split))
  all_goals simp

@[simp] theorem cutStep_frame (s : State) (a b : Nat) :
    (s.cutStep a b).pins = s.pins ∧ (s.cutStep a b).feed = s.feed ∧ (s.cutStep a b).segs = s.segs ∧
    (s.cutStep a b).pool = s.pool ∧ (s.cutStep a b).decoder = s.decoder ∧ (s.cutStep a b).screener = s.screener ∧
    (s.cutStep a b).screens = s.screens ∧ (s.cutStep a b).engine = s.engine ∧ (s.cutStep a b).stamps = s.stamps ∧
    (s.cutStep a b).arbiter = s.arbiter ∧ (s.cutStep a b).memory = s.memory ∧ (s.cutStep a b).pending = s.pending := by
  unfold State.cutStep
  repeat' (first | split | (dsimp only; split))
  all_goals simp

@[simp] theorem beginScan_frame (s : State) (a b : Nat) :
    (s.beginScan a b).pins = s.pins ∧ (s.beginScan a b).link = s.link ∧ (s.beginScan a b).feed = s.feed ∧
    (s.beginScan a b).segs = s.segs ∧ (s.beginScan a b).pool = s.pool ∧ (s.beginScan a b).table = s.table ∧
    (s.beginScan a b).decoder = s.decoder ∧ (s.beginScan a b).screener = s.screener ∧
    (s.beginScan a b).screens = s.screens ∧ (s.beginScan a b).engine = s.engine ∧ (s.beginScan a b).marks = s.marks ∧
    (s.beginScan a b).stamps = s.stamps ∧ (s.beginScan a b).arbiter = s.arbiter ∧
    (s.beginScan a b).memory = s.memory ∧ (s.beginScan a b).pending = s.pending := by
  unfold State.beginScan
  repeat' (first | split | (dsimp only; split))
  all_goals simp

@[simp] theorem monitorRead_frame (s : State) (m : Message) :
    (monitorRead m s).pins = s.pins ∧ (monitorRead m s).feed = s.feed ∧ (monitorRead m s).segs = s.segs ∧
    (monitorRead m s).pool = s.pool ∧ (monitorRead m s).table = s.table ∧ (monitorRead m s).decoder = s.decoder ∧
    (monitorRead m s).screener = s.screener ∧ (monitorRead m s).screens = s.screens ∧
    (monitorRead m s).engine = s.engine ∧ (monitorRead m s).monitor = s.monitor ∧ (monitorRead m s).marks = s.marks ∧
    (monitorRead m s).stamps = s.stamps ∧ (monitorRead m s).arbiter = s.arbiter ∧
    (monitorRead m s).memory = s.memory ∧ (monitorRead m s).pending = s.pending := by
  unfold monitorRead
  repeat' (first | split | (dsimp only; split))
  all_goals simp

@[simp] theorem monitorMeasure_frame (s : State) (m : Message) :
    (monitorMeasure m s).pins = s.pins ∧ (monitorMeasure m s).feed = s.feed ∧ (monitorMeasure m s).segs = s.segs ∧
    (monitorMeasure m s).pool = s.pool ∧ (monitorMeasure m s).table = s.table ∧
    (monitorMeasure m s).decoder = s.decoder ∧ (monitorMeasure m s).screener = s.screener ∧
    (monitorMeasure m s).screens = s.screens ∧ (monitorMeasure m s).engine = s.engine ∧
    (monitorMeasure m s).marks = s.marks ∧ (monitorMeasure m s).stamps = s.stamps ∧
    (monitorMeasure m s).arbiter = s.arbiter ∧ (monitorMeasure m s).memory = s.memory ∧
    (monitorMeasure m s).pending = s.pending := by
  unfold monitorMeasure
  repeat' (first | split | (dsimp only; split))
  all_goals simp

@[simp] theorem monitorStop_frame (s : State) (m : Message) :
    (monitorStop m s).pins = s.pins ∧ (monitorStop m s).feed = s.feed ∧ (monitorStop m s).segs = s.segs ∧
    (monitorStop m s).pool = s.pool ∧ (monitorStop m s).table = s.table ∧ (monitorStop m s).decoder = s.decoder ∧
    (monitorStop m s).screener = s.screener ∧ (monitorStop m s).screens = s.screens ∧
    (monitorStop m s).engine = s.engine ∧ (monitorStop m s).marks = s.marks ∧ (monitorStop m s).stamps = s.stamps ∧
    (monitorStop m s).arbiter = s.arbiter ∧ (monitorStop m s).memory = s.memory ∧
    (monitorStop m s).pending = s.pending := by
  unfold monitorStop
  repeat' (first | split | (dsimp only; split))
  all_goals simp

/-! ### Exposure -/

@[simp] theorem authorise_frame (s : State) (id : Nat) :
    (s.authorise id).pins = s.pins ∧ (s.authorise id).feed = s.feed ∧ (s.authorise id).segs = s.segs ∧
    (s.authorise id).pool = s.pool ∧ (s.authorise id).decoder = s.decoder ∧ (s.authorise id).screener = s.screener ∧
    (s.authorise id).screens = s.screens ∧ (s.authorise id).stamps = s.stamps ∧
    (s.authorise id).arbiter = s.arbiter ∧ (s.authorise id).memory = s.memory ∧
    (s.authorise id).pending = s.pending := by
  unfold State.authorise
  repeat' (first | split | (dsimp only; split))
  all_goals simp

@[simp] theorem enterLeadIn_frame (s : State) :
    (s.enterLeadIn).pins = s.pins ∧ (s.enterLeadIn).link = s.link ∧ (s.enterLeadIn).feed = s.feed ∧
    (s.enterLeadIn).segs = s.segs ∧ (s.enterLeadIn).pool = s.pool ∧ (s.enterLeadIn).table = s.table ∧
    (s.enterLeadIn).decoder = s.decoder ∧ (s.enterLeadIn).screener = s.screener ∧
    (s.enterLeadIn).screens = s.screens ∧ (s.enterLeadIn).marks = s.marks ∧ (s.enterLeadIn).stamps = s.stamps ∧
    (s.enterLeadIn).arbiter = s.arbiter ∧ (s.enterLeadIn).memory = s.memory ∧ (s.enterLeadIn).pending = s.pending := by
  unfold State.enterLeadIn
  repeat' (first | split | (dsimp only; split))
  all_goals simp

@[simp] theorem enterExposing_frame (s : State) (a b : Nat) :
    (s.enterExposing a b).pins = s.pins ∧ (s.enterExposing a b).feed = s.feed ∧ (s.enterExposing a b).segs = s.segs ∧
    (s.enterExposing a b).pool = s.pool ∧ (s.enterExposing a b).decoder = s.decoder ∧
    (s.enterExposing a b).screener = s.screener ∧ (s.enterExposing a b).screens = s.screens ∧
    (s.enterExposing a b).stamps = s.stamps ∧ (s.enterExposing a b).arbiter = s.arbiter ∧
    (s.enterExposing a b).memory = s.memory ∧ (s.enterExposing a b).pending = s.pending := by
  unfold State.enterExposing
  repeat' (first | split | (dsimp only; split))
  all_goals simp

@[simp] theorem indexExposing_frame (s : State) :
    (s.indexExposing).decoder = s.decoder ∧ (s.indexExposing).screener = s.screener ∧
    (s.indexExposing).stamps = s.stamps ∧ (s.indexExposing).memory = s.memory ∧
    (s.indexExposing).pending = s.pending := by
  unfold State.indexExposing
  repeat' (first | split | (dsimp only; split))
  all_goals simp

@[simp] theorem takeIndex_frame (s : State) (a b : Nat) :
    (s.takeIndex a b).decoder = s.decoder ∧ (s.takeIndex a b).screener = s.screener ∧
    (s.takeIndex a b).stamps = s.stamps ∧ (s.takeIndex a b).memory = s.memory ∧
    (s.takeIndex a b).pending = s.pending := by
  unfold State.takeIndex
  repeat' (first | split | (dsimp only; split))
  all_goals simp

@[simp] theorem exposeSwath_frame (s : State) (t : Taken) (p : Plate) (sw : Nat) :
    (s.exposeSwath t p sw).feed = s.feed ∧ (s.exposeSwath t p sw).segs = s.segs ∧
    (s.exposeSwath t p sw).pool = s.pool ∧ (s.exposeSwath t p sw).decoder = s.decoder ∧
    (s.exposeSwath t p sw).screener = s.screener ∧ (s.exposeSwath t p sw).screens = s.screens ∧
    (s.exposeSwath t p sw).monitor = s.monitor ∧ (s.exposeSwath t p sw).stamps = s.stamps ∧
    (s.exposeSwath t p sw).arbiter = s.arbiter ∧ (s.exposeSwath t p sw).memory = s.memory ∧
    (s.exposeSwath t p sw).pending = s.pending := by
  unfold State.exposeSwath
  repeat' (first | split | (dsimp only; split))
  all_goals simp

@[simp] theorem skipLine_frame (s : State) (l : Nat) :
    (s.skipLine l).pins = s.pins ∧ (s.skipLine l).decoder = s.decoder ∧ (s.skipLine l).screener = s.screener ∧
    (s.skipLine l).monitor = s.monitor ∧ (s.skipLine l).stamps = s.stamps ∧ (s.skipLine l).memory = s.memory ∧
    (s.skipLine l).pending = s.pending := by
  unfold State.skipLine
  repeat' (first | split | (dsimp only; split))
  all_goals simp

theorem skipLines_frame (l : List Nat) (s : State) :
    (l.foldl State.skipLine s).pins = s.pins ∧ (l.foldl State.skipLine s).decoder = s.decoder ∧
    (l.foldl State.skipLine s).screener = s.screener ∧ (l.foldl State.skipLine s).monitor = s.monitor ∧
    (l.foldl State.skipLine s).stamps = s.stamps ∧ (l.foldl State.skipLine s).memory = s.memory ∧
    (l.foldl State.skipLine s).pending = s.pending := by
  induction l generalizing s with
  | nil => simp
  | cons a rest ih => simpa using ih (s.skipLine a)

@[simp] theorem skipTo_frame (s : State) (sw : Nat) :
    (s.skipTo sw).pins = s.pins ∧ (s.skipTo sw).decoder = s.decoder ∧ (s.skipTo sw).screener = s.screener ∧
    (s.skipTo sw).monitor = s.monitor ∧ (s.skipTo sw).stamps = s.stamps ∧ (s.skipTo sw).memory = s.memory ∧
    (s.skipTo sw).pending = s.pending := by
  unfold State.skipTo
  dsimp only
  split
  · simp [skipLines_frame]
  · simp

@[simp] theorem underrunSwath_frame (s : State) (sw : Nat) :
    (s.underrunSwath sw).decoder = s.decoder ∧ (s.underrunSwath sw).screener = s.screener ∧
    (s.underrunSwath sw).monitor = s.monitor ∧ (s.underrunSwath sw).stamps = s.stamps ∧
    (s.underrunSwath sw).memory = s.memory ∧ (s.underrunSwath sw).pending = s.pending := by
  unfold State.underrunSwath
  repeat' (first | split | (dsimp only; split))
  all_goals simp

@[simp] theorem takeSwath_frame (s : State) (t : Taken) (p : Plate) :
    (s.takeSwath t p).decoder = s.decoder ∧ (s.takeSwath t p).screener = s.screener ∧
    (s.takeSwath t p).monitor = s.monitor ∧ (s.takeSwath t p).stamps = s.stamps ∧
    (s.takeSwath t p).memory = s.memory ∧ (s.takeSwath t p).pending = s.pending := by
  unfold State.takeSwath
  repeat' (first | split | (dsimp only; split))
  all_goals simp

@[simp] theorem edgeExposing_frame (s : State) (a b : Nat) :
    (s.edgeExposing a b).decoder = s.decoder ∧ (s.edgeExposing a b).screener = s.screener ∧
    (s.edgeExposing a b).stamps = s.stamps ∧ (s.edgeExposing a b).memory = s.memory ∧
    (s.edgeExposing a b).pending = s.pending := by
  unfold State.edgeExposing
  repeat' (first | split | (dsimp only; split))
  all_goals simp

@[simp] theorem takeEdge_frame (s : State) (a b : Nat) :
    (s.takeEdge a b).decoder = s.decoder ∧ (s.takeEdge a b).screener = s.screener ∧
    (s.takeEdge a b).stamps = s.stamps ∧ (s.takeEdge a b).memory = s.memory ∧ (s.takeEdge a b).pending = s.pending := by
  unfold State.takeEdge
  repeat' (first | split | (dsimp only; split))
  all_goals simp

@[simp] theorem setDrumReady_frame (s : State) (b : Bool) :
    (s.setDrumReady b).link = s.link ∧ (s.setDrumReady b).feed = s.feed ∧ (s.setDrumReady b).segs = s.segs ∧
    (s.setDrumReady b).pool = s.pool ∧ (s.setDrumReady b).table = s.table ∧ (s.setDrumReady b).decoder = s.decoder ∧
    (s.setDrumReady b).screener = s.screener ∧ (s.setDrumReady b).screens = s.screens ∧
    (s.setDrumReady b).engine = s.engine ∧ (s.setDrumReady b).monitor = s.monitor ∧
    (s.setDrumReady b).marks = s.marks ∧ (s.setDrumReady b).stamps = s.stamps ∧
    (s.setDrumReady b).arbiter = s.arbiter ∧ (s.setDrumReady b).memory = s.memory ∧
    (s.setDrumReady b).pending = s.pending := by
  unfold State.setDrumReady
  repeat' (first | split | (dsimp only; split))
  all_goals simp

@[simp] theorem readyFalls_frame (s : State) :
    (s.readyFalls).decoder = s.decoder ∧ (s.readyFalls).screener = s.screener ∧ (s.readyFalls).stamps = s.stamps ∧
    (s.readyFalls).memory = s.memory ∧ (s.readyFalls).pending = s.pending := by
  unfold State.readyFalls
  repeat' (first | split | (dsimp only; split))
  all_goals simp

@[simp] theorem readyRises_frame (s : State) :
    (s.readyRises).pins = s.pins ∧ (s.readyRises).link = s.link ∧ (s.readyRises).feed = s.feed ∧
    (s.readyRises).segs = s.segs ∧ (s.readyRises).pool = s.pool ∧ (s.readyRises).table = s.table ∧
    (s.readyRises).decoder = s.decoder ∧ (s.readyRises).screener = s.screener ∧ (s.readyRises).screens = s.screens ∧
    (s.readyRises).monitor = s.monitor ∧ (s.readyRises).marks = s.marks ∧ (s.readyRises).stamps = s.stamps ∧
    (s.readyRises).arbiter = s.arbiter ∧ (s.readyRises).memory = s.memory ∧ (s.readyRises).pending = s.pending := by
  unfold State.readyRises
  repeat' (first | split | (dsimp only; split))
  all_goals simp

@[simp] theorem plateExpose_frame (s : State) (m : Message) :
    (plateExpose m s).pins = s.pins ∧ (plateExpose m s).feed = s.feed ∧ (plateExpose m s).segs = s.segs ∧
    (plateExpose m s).pool = s.pool ∧ (plateExpose m s).decoder = s.decoder ∧
    (plateExpose m s).screener = s.screener ∧ (plateExpose m s).screens = s.screens ∧
    (plateExpose m s).stamps = s.stamps ∧ (plateExpose m s).arbiter = s.arbiter ∧
    (plateExpose m s).memory = s.memory ∧ (plateExpose m s).pending = s.pending := by
  unfold plateExpose
  repeat' (first | split | (dsimp only; split))
  all_goals simp

@[simp] theorem exposeSetup_frame (s : State) (m : Message) :
    (exposeSetup m s).pins = s.pins ∧ (exposeSetup m s).feed = s.feed ∧ (exposeSetup m s).segs = s.segs ∧
    (exposeSetup m s).pool = s.pool ∧ (exposeSetup m s).table = s.table ∧ (exposeSetup m s).decoder = s.decoder ∧
    (exposeSetup m s).screener = s.screener ∧ (exposeSetup m s).screens = s.screens ∧
    (exposeSetup m s).monitor = s.monitor ∧ (exposeSetup m s).marks = s.marks ∧ (exposeSetup m s).stamps = s.stamps ∧
    (exposeSetup m s).arbiter = s.arbiter ∧ (exposeSetup m s).memory = s.memory ∧
    (exposeSetup m s).pending = s.pending := by
  unfold exposeSetup
  repeat' (first | split | (dsimp only; split))
  all_goals simp

/-! ### Arbiter -/

@[simp] theorem grant_frame (s : State) (b : Burst) :
    (s.grant b).pins = s.pins ∧ (s.grant b).link = s.link ∧ (s.grant b).feed = s.feed ∧ (s.grant b).segs = s.segs ∧
    (s.grant b).pool = s.pool ∧ (s.grant b).table = s.table ∧ (s.grant b).decoder = s.decoder ∧
    (s.grant b).screener = s.screener ∧ (s.grant b).screens = s.screens ∧ (s.grant b).engine = s.engine ∧
    (s.grant b).monitor = s.monitor ∧ (s.grant b).marks = s.marks ∧ (s.grant b).stamps = s.stamps ∧
    (s.grant b).memory = s.memory ∧ (s.grant b).pending = s.pending := by
  unfold State.grant
  repeat' (first | split | (dsimp only; split))
  all_goals simp

@[simp] theorem endPayload_frame (s : State) (g : OpenSegment) (p : List Byte) :
    (s.endPayload g p).pins = s.pins ∧ (s.endPayload g p).link = s.link ∧ (s.endPayload g p).segs = s.segs ∧
    (s.endPayload g p).pool = s.pool ∧ (s.endPayload g p).table = s.table ∧ (s.endPayload g p).decoder = s.decoder ∧
    (s.endPayload g p).screener = s.screener ∧ (s.endPayload g p).screens = s.screens ∧
    (s.endPayload g p).engine = s.engine ∧ (s.endPayload g p).monitor = s.monitor ∧
    (s.endPayload g p).marks = s.marks ∧ (s.endPayload g p).stamps = s.stamps ∧
    (s.endPayload g p).arbiter = s.arbiter ∧ (s.endPayload g p).memory = s.memory ∧
    (s.endPayload g p).pending = s.pending := by
  unfold State.endPayload
  repeat' (first | split | (dsimp only; split))
  all_goals simp

@[simp] theorem intakeBurstDone_frame (s : State) (n : Nat) :
    (s.intakeBurstDone n).pins = s.pins ∧ (s.intakeBurstDone n).link = s.link ∧ (s.intakeBurstDone n).segs = s.segs ∧
    (s.intakeBurstDone n).pool = s.pool ∧ (s.intakeBurstDone n).table = s.table ∧
    (s.intakeBurstDone n).decoder = s.decoder ∧ (s.intakeBurstDone n).screener = s.screener ∧
    (s.intakeBurstDone n).screens = s.screens ∧ (s.intakeBurstDone n).engine = s.engine ∧
    (s.intakeBurstDone n).monitor = s.monitor ∧ (s.intakeBurstDone n).marks = s.marks ∧
    (s.intakeBurstDone n).stamps = s.stamps ∧ (s.intakeBurstDone n).arbiter = s.arbiter ∧
    (s.intakeBurstDone n).memory = s.memory ∧ (s.intakeBurstDone n).pending = s.pending := by
  unfold State.intakeBurstDone
  repeat' (first | split | (dsimp only; split))
  all_goals simp

@[simp] theorem serve_frame (s : State) (b : Burst) (l : List Byte) :
    (s.serve b l).pins = s.pins ∧ (s.serve b l).segs = s.segs ∧ (s.serve b l).monitor = s.monitor ∧
    (s.serve b l).marks = s.marks ∧ (s.serve b l).stamps = s.stamps ∧ (s.serve b l).arbiter = s.arbiter ∧
    (s.serve b l).memory = s.memory ∧ (s.serve b l).pending = s.pending := by
  unfold State.serve
  repeat' (first | split | (dsimp only; split))
  all_goals simp

@[simp] theorem finishBurst_frame (s : State) (b : Burst) :
    (s.finishBurst b).pins = s.pins ∧ (s.finishBurst b).segs = s.segs ∧ (s.finishBurst b).monitor = s.monitor ∧
    (s.finishBurst b).marks = s.marks ∧ (s.finishBurst b).stamps = s.stamps ∧ (s.finishBurst b).pending = s.pending := by
  unfold State.finishBurst
  repeat' (first | split | (dsimp only; split))
  all_goals simp

/-! ### LinkLine -/

@[simp] theorem sendNext_frame (s : State) :
    (s.sendNext).pins = s.pins ∧ (s.sendNext).feed = s.feed ∧ (s.sendNext).segs = s.segs ∧
    (s.sendNext).pool = s.pool ∧ (s.sendNext).table = s.table ∧ (s.sendNext).decoder = s.decoder ∧
    (s.sendNext).screener = s.screener ∧ (s.sendNext).screens = s.screens ∧ (s.sendNext).engine = s.engine ∧
    (s.sendNext).monitor = s.monitor ∧ (s.sendNext).marks = s.marks ∧ (s.sendNext).stamps = s.stamps ∧
    (s.sendNext).arbiter = s.arbiter ∧ (s.sendNext).memory = s.memory ∧ (s.sendNext).pending = s.pending := by
  unfold State.sendNext
  repeat' (first | split | (dsimp only; split))
  all_goals simp

@[simp] theorem statusRequest_frame (s : State) (m : Message) :
    (statusRequest m s).pins = s.pins ∧ (statusRequest m s).feed = s.feed ∧ (statusRequest m s).segs = s.segs ∧
    (statusRequest m s).pool = s.pool ∧ (statusRequest m s).table = s.table ∧
    (statusRequest m s).decoder = s.decoder ∧ (statusRequest m s).screener = s.screener ∧
    (statusRequest m s).screens = s.screens ∧ (statusRequest m s).engine = s.engine ∧
    (statusRequest m s).monitor = s.monitor ∧ (statusRequest m s).marks = s.marks ∧
    (statusRequest m s).stamps = s.stamps ∧ (statusRequest m s).arbiter = s.arbiter ∧
    (statusRequest m s).memory = s.memory ∧ (statusRequest m s).pending = s.pending := by
  unfold statusRequest
  repeat' (first | split | (dsimp only; split))
  all_goals simp

end Sys2Proof.Machine
end

