-- ==== Sys2Proof/Laws/LineCode.lean ====
section
/-! SUPPORT. The LINE code read number by number (R63, R66, R67): what the bytes of a whole number, of a list of run lengths
and of a list of spans do to a decode. -/

namespace Sys2Proof.Machine

/-! ### One number -/

theorem Decode.await_work (d : Decode) (what : NumberOf) : (d.await what).work = d.work := rfl

/-- The bytes of a number that go on: they gather its value. -/
theorem Decode.eat_going (what : NumberOf) (bytes : List Byte) (h : ∀ b ∈ bytes, 128 ≤ b.toNat) (d : Decode) (v k : Nat)
    (hk : k + bytes.length ≤ 2) (hd : d.reader = .number what v k) :
    bytes.foldl Decode.eat d =
      { d with reader := .number what (bytes.foldl (fun v b => v * 128 + b.toNat % 128) v) (k + bytes.length) } := by
  induction bytes generalizing d v k with
  | nil => simp [← hd]
  | cons b r ih =>
    simp only [List.length_cons] at hk
    have hb := h b (by simp)
    have he : d.eat b = { d with reader := .number what (v * 128 + b.toNat % 128) (k + 1) } := by
      unfold Decode.eat; rw [hd]; simp only []
      rw [if_neg (by omega), if_neg (by omega)]
    rw [List.foldl_cons, he, ih (fun x hx => h x (by simp [hx])) _ _ _ (by omega) rfl]
    simp [Nat.add_assoc, Nat.add_comm 1]

/-- What a number does depends on the decode but for its reader. -/
theorem Decode.takeNumber_reader (d : Decode) (what : NumberOf) (v : Nat) (r : Reader) :
    ({ d with reader := r } : Decode).takeNumber what v = d.takeNumber what v := by
  cases what <;> simp [Decode.takeNumber, Decode.takeRun, Decode.takeSpan, Decode.await, Decode.fail, Decode.produce]

theorem Decode.await_takeNumber (d : Decode) (w what : NumberOf) (v : Nat) :
    (d.await w).takeNumber what v = d.takeNumber what v := d.takeNumber_reader what v _

theorem Decode.await_await (d : Decode) (w w' : NumberOf) : (d.await w).await w' = d.await w' := rfl

theorem Decode.await_fail (d : Decode) (w : NumberOf) : (d.await w).fail = d.fail := rfl

/-- A whole number, however many bytes it takes, gives its value (R63). -/
theorem Decode.eat_number {d : Decode} {what : NumberOf} {bytes : List Byte} {v : Nat} (hd : d.reader = .number what 0 0)
    (h : Spells bytes v) : bytes.foldl Decode.eat d = d.takeNumber what v := by
  obtain ⟨before, last, rfl, h1, h2, h3, rfl⟩ := h
  rw [List.foldl_append, Decode.eat_going what before h2 d 0 0 (by omega) hd]
  simp only [List.foldl_cons, List.foldl_nil, List.foldl_append]
  rw [Decode.eat]; simp only []
  rw [if_pos h3, Decode.takeNumber_reader]

/-- A third byte with its continuation indication set is a code error (R63). -/
theorem Decode.eat_malformed {d : Decode} {what : NumberOf} {bytes : List Byte} (hd : d.reader = .number what 0 0)
    (h1 : bytes.length = 3) (h2 : ∀ b ∈ bytes, 128 ≤ b.toNat) : bytes.foldl Decode.eat d = d.fail := by
  match bytes, h1 with
  | [a, b, c], _ =>
    rw [show [a, b, c] = [a, b] ++ [c] from rfl, List.foldl_append,
      Decode.eat_going what [a, b] (fun x hx => h2 x (by simp at hx ⊢; tauto)) d 0 0 (by simp) hd]
    simp only [List.foldl_cons, List.foldl_nil, List.length_cons, List.length_nil]
    rw [Decode.eat]; simp only []
    rw [if_neg (by have := h2 c (by simp); omega)]
    simp [Decode.fail]

/-- A number that is malformed or of a wrong value is a code error, where every wrong value is one. -/
theorem Decode.eat_errs {d : Decode} {what : NumberOf} {bytes : List Byte} {wrong : Nat → Prop}
    (hd : d.reader = .number what 0 0) (h : NumberErrs bytes wrong) (hw : ∀ v, wrong v → d.takeNumber what v = d.fail) :
    bytes.foldl Decode.eat d = d.fail := by
  rcases h with ⟨h1, h2⟩ | ⟨v, h1, h2⟩
  · exact Decode.eat_malformed hd h1 h2
  · rw [Decode.eat_number hd h1, hw v h2]

/-! ### RUNS -/

/-- The line laid by whole run lengths, with the colour and the place of the next. -/
theorem Decode.eat_runs (spelled : List (List Byte)) (runs : List Nat) (hs : List.Forall₂ Spells spelled runs) (d : Decode)
    (left : Nat) (black first : Bool) (line : List Bool) (hd : d.reader = .number (.runLength left black first line) 0 0)
    (hl : runs.length < left) (hw : line.length + runs.sum ≤ d.work.entry.header.w)
    (hz : ∀ x ∈ (if first then runs.tail else runs), x ≠ 0) :
    spelled.flatten.foldl Decode.eat d = d.await
      (.runLength (left - runs.length) (xor black (decide (runs.length % 2 = 1))) (first && runs.isEmpty)
        (line ++ runsLine black runs)) := by
  induction hs generalizing d left black first line with
  | nil => simp [← hd, runsLine, Decode.await]
  | @cons b v bs vs hb hs ih =>
    simp only [List.length_cons, List.sum_cons] at hl hw
    have hv : ¬(v = 0 ∧ first = false) := by
      rintro ⟨rfl, rfl⟩; exact hz 0 (by simp) rfl
    have he : d.takeNumber (.runLength left black first line) v
        = d.await (.runLength (left - 1) (!black) false (line ++ List.replicate v black)) := by
      simp only [Decode.takeNumber, Decode.takeRun]
      rw [if_neg hv, if_neg (by omega), if_pos (by omega)]
    rw [List.flatten_cons, List.foldl_append, Decode.eat_number hd hb, he,
      ih _ _ _ _ _ rfl (by omega) (by rw [Decode.await_work]; simp; omega) (by
        intro x hx; apply hz; cases first <;> simp_all)]
    have e1 : left - 1 - vs.length = left - (vs.length + 1) := by omega
    have e2 : xor (!black) (decide (vs.length % 2 = 1)) = xor black (decide ((vs.length + 1) % 2 = 1)) := by
      rcases Nat.mod_two_eq_zero_or_one vs.length with h | h <;>
        rcases (show (vs.length + 1) % 2 = 0 ∨ (vs.length + 1) % 2 = 1 by omega) with h' | h' <;>
        first | omega | (simp [h, h'])
    simp [runsLine, e1, e2, List.append_assoc, Decode.await]

theorem runsLine_length (black : Bool) (runs : List Nat) : (runsLine black runs).length = runs.sum := by
  induction runs generalizing black with
  | nil => rfl
  | cons v r ih => simp [runsLine, ih]

theorem runsLine_append (black : Bool) (runs : List Nat) (v : Nat) : runsLine black (runs ++ [v])
    = runsLine black runs ++ List.replicate v (xor black (decide (runs.length % 2 = 1))) := by
  induction runs generalizing black with
  | nil => simp [runsLine]
  | cons x r ih =>
    rw [List.cons_append, runsLine, runsLine, ih, List.append_assoc, List.length_cons]
    have : xor (!black) (decide (r.length % 2 = 1)) = xor black (decide ((r.length + 1) % 2 = 1)) := by
      rcases (show r.length % 2 = 1 ∧ (r.length + 1) % 2 = 0 ∨ r.length % 2 = 0 ∧ (r.length + 1) % 2 = 1 by omega) with
        ⟨h, h'⟩ | ⟨h, h'⟩ <;> simp [h, h']
    rw [this]

/-! ### FLIP -/

/-- The line flipped by whole spans, with the place of the next. -/
theorem Decode.eat_spans (spelled : List (List Byte × List Byte)) (spans : List (Nat × Nat))
    (hs : List.Forall₂ (fun b x => Spells b.1 x.1 ∧ Spells b.2 x.2) spelled spans) (d : Decode) (left pos : Nat)
    (line : List Bool) (hd : d.reader = .number (.spanSkip left pos line) 0 0) (hl : spans.length < left)
    (hw : pos + (spans.map fun x => x.1 + x.2).sum ≤ d.work.entry.header.w) (hz : ∀ x ∈ spans, x.2 ≠ 0) :
    (spelled.flatMap fun b => b.1 ++ b.2).foldl Decode.eat d = d.await
      (.spanSkip (left - spans.length) (pos + (spans.map fun x => x.1 + x.2).sum) (flipLine pos spans line)) := by
  induction hs generalizing d left pos line with
  | nil => simp [← hd, flipLine, Decode.await]
  | @cons b x bs xs hb hs ih =>
    simp only [List.length_cons, List.map_cons, List.sum_cons] at hl hw
    have h1 : d.takeNumber (.spanSkip left pos line) x.1
        = d.await (.spanLength left (pos + x.1) line) := rfl
    have h2 : d.takeNumber (.spanLength left (pos + x.1) line) x.2
        = d.await (.spanSkip (left - 1) (pos + x.1 + x.2) (invertSpan (pos + x.1) x.2 line)) := by
      simp only [Decode.takeNumber, Decode.takeSpan]
      rw [if_neg (hz x (by simp)), if_neg (by omega), if_pos (by omega)]
    rw [List.flatMap_cons, List.foldl_append, List.foldl_append, Decode.eat_number hd hb.1, h1,
      Decode.eat_number rfl hb.2, Decode.await_takeNumber, h2, ih _ _ _ _ rfl (by omega)
        (by rw [Decode.await_work, Nat.add_assoc pos]; omega) (fun y hy => hz y (by simp [hy]))]
    have e1 : left - 1 - xs.length = left - (xs.length + 1) := by omega
    simp [flipLine, e1, Nat.add_assoc, Decode.await]

end Sys2Proof.Machine
end

