-- ==== Sys2Proof/Laws/Memory.lean ====
section
/-! SUPPORT. Plate memory's operations: each keeps the canonical form, what a byte reads as after a write, and the shape of a
burst on the segment ring. -/

namespace Sys2Proof.Machine

/-! ### The canonical form -/

theorem cellsWf_tail {c : Host.Cell} {l : List Host.Cell} (h : cellsWf (c :: l) = true) : cellsWf l = true := by
  cases l with
  | nil => rfl
  | cons d r => simp [cellsWf] at h; exact h.2

theorem cellsWf_head {c : Host.Cell} {l : List Host.Cell} (h : cellsWf (c :: l) = true) : c.1 < plateMemorySize := by
  cases l with
  | nil => simpa [cellsWf] using h
  | cons d r => simp [cellsWf] at h; exact h.1.2

theorem cellsWf_lt {c : Host.Cell} {l : List Host.Cell} (h : cellsWf (c :: l) = true) : ∀ d ∈ l, c.1 < d.1 := by
  induction l generalizing c with
  | nil => simp
  | cons e r ih =>
    simp [cellsWf] at h
    intro d hd
    rcases List.mem_cons.mp hd with rfl | hd
    · exact h.1.1
    · exact h.1.1.trans (ih h.2 d hd)

/-- The canonical form, built from the front. -/
theorem cellsWf_cons {c : Host.Cell} {l : List Host.Cell} (hc : c.1 < plateMemorySize) (hl : ∀ d ∈ l, c.1 < d.1)
    (h : cellsWf l = true) : cellsWf (c :: l) = true := by
  cases l with
  | nil => simpa [cellsWf] using hc
  | cons d r => simp [cellsWf, hc, hl d (by simp), h]

theorem setCell_mem {a : Nat} {v : Byte} {l : List Host.Cell} {d : Host.Cell} (h : d ∈ setCell a v l) :
    d.1 = a ∨ d ∈ l := by
  induction l with
  | nil => simp [setCell] at h; simp [h]
  | cons c r ih =>
    unfold setCell at h
    split at h
    · rcases List.mem_cons.mp h with rfl | h <;> simp [*]
    · split at h
      · rcases List.mem_cons.mp h with rfl | h <;> simp [*]
      · rcases List.mem_cons.mp h with rfl | h
        · simp
        · rcases ih h with h | h <;> simp [h]

theorem setCell_wf {a : Nat} {v : Byte} {l : List Host.Cell} (ha : a < plateMemorySize) (h : cellsWf l = true) :
    cellsWf (setCell a v l) = true := by
  induction l with
  | nil => simpa [setCell, cellsWf] using ha
  | cons c r ih =>
    unfold setCell
    split
    next hlt =>
      refine cellsWf_cons ha (fun d hd => ?_) h
      rcases List.mem_cons.mp hd with rfl | hd
      · exact hlt
      · exact Nat.lt_trans hlt (cellsWf_lt h d hd)
    next hge =>
      split
      next he => exact cellsWf_cons ha (fun d hd => by simpa [he] using cellsWf_lt h d hd) (cellsWf_tail h)
      next hne =>
        refine cellsWf_cons (cellsWf_head h) (fun d hd => ?_) (ih (cellsWf_tail h))
        rcases setCell_mem hd with hd | hd
        · omega
        · exact cellsWf_lt h d hd

theorem filter_wf {f : Host.Cell → Bool} {l : List Host.Cell} (h : cellsWf l = true) : cellsWf (l.filter f) = true := by
  induction l with
  | nil => simpa using h
  | cons c r ih =>
    rw [List.filter_cons]
    split
    · exact cellsWf_cons (cellsWf_head h) (fun d hd => cellsWf_lt h d (List.mem_of_mem_filter hd)) (ih (cellsWf_tail h))
    · exact ih (cellsWf_tail h)

theorem Memory.write_wf {m : Memory} {a : Nat} {v : Byte} (ha : a < plateMemorySize) (h : m.wf = true) :
    (m.write a v).wf = true := setCell_wf ha h

theorem Memory.writeRun_wf {m : Memory} {a : Nat} {cells : List MaskedByte} (ha : a + cells.length ≤ plateMemorySize)
    (h : m.wf = true) : (m.writeRun a cells).wf = true := by
  induction cells generalizing m a with
  | nil => exact h
  | cons c r ih =>
    unfold Memory.writeRun
    simp only [List.length_cons] at ha
    exact ih (by omega) (Memory.write_wf (by omega) h)

theorem Memory.forget_wf {m : Memory} {a n : Nat} (h : m.wf = true) : (m.forget a n).wf = true := filter_wf h

theorem Memory.powerOn_wf (m : Memory) : m.powerOn.wf = true := rfl

theorem Memory.stopped_wf {m : Memory} {a : Arbiter} (h : m.wf = true) : (m.stopped a).wf = true := by
  unfold Memory.stopped
  repeat' split
  · exact Memory.forget_wf h
  · exact h
  · exact h

theorem Memory.after_wf {m : Memory} {b : Burst} (hb : b.inside = true) (h : m.wf = true) : (m.after b).wf = true := by
  unfold Memory.after
  simp only [Burst.inside, decide_eq_true_eq] at hb
  split
  · exact h
  next cells hc =>
    rw [hc] at hb
    exact Memory.writeRun_wf hb h

/-! ### Reading after a write -/

theorem findCell_none {a : Nat} {l : List Host.Cell} (h : ∀ d ∈ l, a < d.1) : findCell a l = none := by
  cases l with
  | nil => rfl
  | cons d r => simp [findCell, Nat.ne_of_lt (h d (by simp)), h d (by simp)]

theorem findCell_setCell {a b : Nat} {v : Byte} {l : List Host.Cell} (h : cellsWf l = true) :
    findCell b (setCell a v l) = if b = a then some v else findCell b l := by
  induction l with
  | nil => simp only [setCell, findCell]; split_ifs <;> rfl
  | cons c r ih =>
    unfold setCell
    split
    next hlt =>
      by_cases hb : b = a
      · simp [findCell, hb]
      · simp only [findCell, hb, if_false]
        split_ifs <;> first | rfl | omega
    next hge =>
      split
      next he =>
        by_cases hb : b = a
        · simp [findCell, hb]
        · simp [findCell, hb, ← he]
      next hne =>
        simp only [findCell, ih (cellsWf_tail h)]
        by_cases hb : b = a
        · subst hb; simp [hne, hge]
        · simp [hb]

theorem Memory.read_write {m : Memory} {a b : Nat} {v : Byte} (h : m.wf = true) :
    (m.write a v).read b = if b = a then v else m.read b := by
  simp only [Memory.read, Memory.write, findCell_setCell h]
  split_ifs <;> rfl

theorem Memory.writeRun_epoch (m : Memory) (a : Nat) (cells : List MaskedByte) : (m.writeRun a cells).epoch = m.epoch := by
  induction cells generalizing m a with
  | nil => rfl
  | cons c r ih => unfold Memory.writeRun; rw [ih]; rfl

/-- A burst changes no byte outside the run it writes. -/
theorem Memory.read_writeRun_outside {m : Memory} {a b : Nat} {cells : List MaskedByte} (h : m.wf = true)
    (ha : a + cells.length ≤ plateMemorySize) (hb : b < a ∨ a + cells.length ≤ b) :
    (m.writeRun a cells).read b = m.read b := by
  induction cells generalizing m a with
  | nil => rfl
  | cons c r ih =>
    unfold Memory.writeRun
    simp only [List.length_cons] at ha hb
    rw [ih (Memory.write_wf (by omega) h) (by omega) (by omega), Memory.read_write h, if_neg (by omega)]

/-- A byte inside the run reads as its cell says. -/
theorem Memory.read_writeRun_inside {m : Memory} {a i : Nat} {cells : List MaskedByte} {c : MaskedByte} (h : m.wf = true)
    (ha : a + cells.length ≤ plateMemorySize) (hc : cells[i]? = some c) :
    (m.writeRun a cells).read (a + i) = (m.read (a + i) &&& c.keep) ||| c.put := by
  induction cells generalizing m a i with
  | nil => simp at hc
  | cons d r ih =>
    unfold Memory.writeRun
    simp only [List.length_cons] at ha
    cases i with
    | zero =>
      simp only [List.getElem?_cons_zero, Option.some.injEq] at hc
      subst hc
      rw [Memory.read_writeRun_outside (Memory.write_wf (by omega) h) (by omega) (by omega), Memory.read_write h]
      simp only [Nat.add_zero, if_true]
      split
      next hk => simp [hk]
      · rfl
    | succ i =>
      simp only [List.getElem?_cons_succ] at hc
      have := ih (m := m.write a (if d.keep = 0 then d.put else d.on (m.read a))) (a := a + 1)
        (Memory.write_wf (by omega) h) (by omega) hc
      rw [show a + (i + 1) = a + 1 + i by omega, this, Memory.read_write h, if_neg (by omega)]

/-- The memory after power-on reset is in canonical form. -/
theorem reset_memory_wf : State.reset.memory.wf = true := rfl

/-! ### Bursts on the segment ring (R165) -/

theorem ringBurst_le (start done left : Nat) : ringBurst start done left ≤ 256 ∧ ringBurst start done left ≤ left := by
  unfold ringBurst; omega

/-- A transfer that is not over asks for at least one byte. -/
theorem ringBurst_pos (start done : Nat) {left : Nat} (h : 0 < left) : 0 < ringBurst start done left := by
  unfold ringBurst ringSize; omega

/-- A burst lies inside the ring (R164, R165). -/
theorem ringBurst_inside (start done left : Nat) :
    ringBase ≤ ringAddr start done ∧ ringAddr start done + ringBurst start done left ≤ ringBase + ringSize := by
  unfold ringAddr ringBurst ringSize; omega

/-- A burst ends the transfer, or at a multiple of 256 bytes from the transfer's start, or at the ring's end (R165). -/
theorem ringBurst_end (start done left : Nat) :
    let n := ringBurst start done left
    n = left ∨ (done + n) % 256 = 0 ∨ ringAddr start done + n = ringBase + ringSize := by
  unfold ringAddr ringBurst ringSize; omega

end Sys2Proof.Machine
end

