-- ==== Sys2Proof/Laws/Posts.lean ====
section
/-! SUPPORT. What an operation that only posts notices leaves in the control link: the receiver, the requests, the replies and
the message being sent. -/

set_option linter.unusedTactic false
set_option linter.unreachableTactic false

namespace Sys2Proof.Machine

/-! ### Ops -/

@[simp] theorem post_posts (s : State) (n : Notice) :
    (s.post n).link.receiver = s.link.receiver ∧ (s.post n).link.requests = s.link.requests ∧
    (s.post n).link.job = s.link.job ∧ (s.post n).link.replies = s.link.replies ∧
    (s.post n).link.errors = s.link.errors ∧ (s.post n).link.sending = s.link.sending := by
  unfold State.post Link.post
  split_ifs <;> simp

@[simp] theorem abandon_posts (s : State) (r : Abandon) (i : Intake) :
    (s.abandon r i).link.receiver = s.link.receiver ∧ (s.abandon r i).link.requests = s.link.requests ∧
    (s.abandon r i).link.job = s.link.job ∧ (s.abandon r i).link.replies = s.link.replies ∧
    (s.abandon r i).link.errors = s.link.errors ∧ (s.abandon r i).link.sending = s.link.sending := by
  unfold State.abandon
  repeat' (first | split | (dsimp only; split))
  all_goals simp

@[simp] theorem interrupt_posts (s : State) (w : Header → Bool) :
    (s.interrupt w).link.receiver = s.link.receiver ∧ (s.interrupt w).link.requests = s.link.requests ∧
    (s.interrupt w).link.job = s.link.job ∧ (s.interrupt w).link.replies = s.link.replies ∧
    (s.interrupt w).link.errors = s.link.errors ∧ (s.interrupt w).link.sending = s.link.sending := by
  unfold State.interrupt
  repeat' (first | split | (dsimp only; split))
  all_goals simp

@[simp] theorem addRecord_posts (s : State) (id : Nat) (r : DamageRecord) :
    (s.addRecord id r).link.receiver = s.link.receiver ∧ (s.addRecord id r).link.requests = s.link.requests ∧
    (s.addRecord id r).link.job = s.link.job ∧ (s.addRecord id r).link.replies = s.link.replies ∧
    (s.addRecord id r).link.errors = s.link.errors ∧ (s.addRecord id r).link.sending = s.link.sending := by
  unfold State.addRecord
  repeat' (first | split | (dsimp only; split))
  all_goals simp

@[simp] theorem addMarked_posts (s : State) (id : Nat) (r : DamageRecord) (l : Nat) :
    (s.addMarked id r l).link.receiver = s.link.receiver ∧ (s.addMarked id r l).link.requests = s.link.requests ∧
    (s.addMarked id r l).link.job = s.link.job ∧ (s.addMarked id r l).link.replies = s.link.replies ∧
    (s.addMarked id r l).link.errors = s.link.errors ∧ (s.addMarked id r l).link.sending = s.link.sending := by
  unfold State.addMarked
  repeat' (first | split | (dsimp only; split))
  all_goals simp

@[simp] theorem testStall_posts (s : State) :
    (s.testStall).link.receiver = s.link.receiver ∧ (s.testStall).link.requests = s.link.requests ∧
    (s.testStall).link.job = s.link.job ∧ (s.testStall).link.replies = s.link.replies ∧
    (s.testStall).link.errors = s.link.errors ∧ (s.testStall).link.sending = s.link.sending := by
  unfold State.testStall
  repeat' (first | split | (dsimp only; split))
  all_goals simp

/-! ### Engine -/

@[simp] theorem abandonScan_posts (s : State) :
    (s.abandonScan).link.receiver = s.link.receiver ∧ (s.abandonScan).link.requests = s.link.requests ∧
    (s.abandonScan).link.job = s.link.job ∧ (s.abandonScan).link.replies = s.link.replies ∧
    (s.abandonScan).link.errors = s.link.errors ∧ (s.abandonScan).link.sending = s.link.sending := by
  unfold State.abandonScan
  repeat' (first | split | (dsimp only; split))
  all_goals simp

@[simp] theorem takeHead_posts (s : State) :
    (s.takeHead).link.receiver = s.link.receiver ∧ (s.takeHead).link.requests = s.link.requests ∧
    (s.takeHead).link.job = s.link.job ∧ (s.takeHead).link.replies = s.link.replies ∧
    (s.takeHead).link.errors = s.link.errors ∧ (s.takeHead).link.sending = s.link.sending := by
  unfold State.takeHead
  repeat' (first | split | (dsimp only; split))
  all_goals simp

@[simp] theorem endPlate_posts (s : State) (p : Plate) (x : PlateState) (c : Bool) :
    (s.endPlate p x c).link.receiver = s.link.receiver ∧ (s.endPlate p x c).link.requests = s.link.requests ∧
    (s.endPlate p x c).link.job = s.link.job ∧ (s.endPlate p x c).link.replies = s.link.replies ∧
    (s.endPlate p x c).link.errors = s.link.errors ∧ (s.endPlate p x c).link.sending = s.link.sending := by
  unfold State.endPlate
  repeat' (first | split | (dsimp only; split))
  all_goals simp

@[simp] theorem faultPlate_posts (s : State) (p : Plate) (c : Bool) :
    (s.faultPlate p c).link.receiver = s.link.receiver ∧ (s.faultPlate p c).link.requests = s.link.requests ∧
    (s.faultPlate p c).link.job = s.link.job ∧ (s.faultPlate p c).link.replies = s.link.replies ∧
    (s.faultPlate p c).link.errors = s.link.errors ∧ (s.faultPlate p c).link.sending = s.link.sending := by
  unfold State.faultPlate
  repeat' (first | split | (dsimp only; split))
  all_goals simp

@[simp] theorem drumFault_posts (s : State) (c : DrumCause) :
    (s.drumFault c).link.receiver = s.link.receiver ∧ (s.drumFault c).link.requests = s.link.requests ∧
    (s.drumFault c).link.job = s.link.job ∧ (s.drumFault c).link.replies = s.link.replies ∧
    (s.drumFault c).link.errors = s.link.errors ∧ (s.drumFault c).link.sending = s.link.sending := by
  unfold State.drumFault
  repeat' (first | split | (dsimp only; split))
  all_goals simp

@[simp] theorem endCopy_posts (s : State) (t : Taken) (p : Plate) :
    (s.endCopy t p).link.receiver = s.link.receiver ∧ (s.endCopy t p).link.requests = s.link.requests ∧
    (s.endCopy t p).link.job = s.link.job ∧ (s.endCopy t p).link.replies = s.link.replies ∧
    (s.endCopy t p).link.errors = s.link.errors ∧ (s.endCopy t p).link.sending = s.link.sending := by
  unfold State.endCopy
  repeat' (first | split | (dsimp only; split))
  all_goals simp

/-! ### Plates -/

@[simp] theorem addPlate_posts (s : State) (p : Plate) :
    (s.addPlate p).link.receiver = s.link.receiver ∧ (s.addPlate p).link.requests = s.link.requests ∧
    (s.addPlate p).link.job = s.link.job ∧ (s.addPlate p).link.replies = s.link.replies ∧
    (s.addPlate p).link.errors = s.link.errors ∧ (s.addPlate p).link.sending = s.link.sending := by
  unfold State.addPlate
  repeat' (first | split | (dsimp only; split))
  all_goals simp

@[simp] theorem abortPlate_posts (s : State) (p : Plate) :
    (s.abortPlate p).link.receiver = s.link.receiver ∧ (s.abortPlate p).link.requests = s.link.requests ∧
    (s.abortPlate p).link.job = s.link.job ∧ (s.abortPlate p).link.replies = s.link.replies ∧
    (s.abortPlate p).link.errors = s.link.errors ∧ (s.abortPlate p).link.sending = s.link.sending := by
  unfold State.abortPlate
  repeat' (first | split | (dsimp only; split))
  all_goals simp

/-! ### FeedLine -/

@[simp] theorem refuseOpen_posts (s : State) (r : RawHeader) (x : Refuse) :
    (s.refuseOpen r x).link.receiver = s.link.receiver ∧ (s.refuseOpen r x).link.requests = s.link.requests ∧
    (s.refuseOpen r x).link.job = s.link.job ∧ (s.refuseOpen r x).link.replies = s.link.replies ∧
    (s.refuseOpen r x).link.errors = s.link.errors ∧ (s.refuseOpen r x).link.sending = s.link.sending := by
  unfold State.refuseOpen
  repeat' (first | split | (dsimp only; split))
  all_goals simp

@[simp] theorem tryOpen_posts (s : State) (r : RawHeader) :
    (s.tryOpen r).link.receiver = s.link.receiver ∧ (s.tryOpen r).link.requests = s.link.requests ∧
    (s.tryOpen r).link.job = s.link.job ∧ (s.tryOpen r).link.replies = s.link.replies ∧
    (s.tryOpen r).link.errors = s.link.errors ∧ (s.tryOpen r).link.sending = s.link.sending := by
  unfold State.tryOpen
  repeat' (first | split | (dsimp only; split))
  all_goals simp

@[simp] theorem takeSelect_posts (s : State) (b : List Byte) :
    (takeSelect b s).link.receiver = s.link.receiver ∧ (takeSelect b s).link.requests = s.link.requests ∧
    (takeSelect b s).link.job = s.link.job ∧ (takeSelect b s).link.replies = s.link.replies ∧
    (takeSelect b s).link.errors = s.link.errors ∧ (takeSelect b s).link.sending = s.link.sending := by
  unfold takeSelect
  repeat' (first | split | (dsimp only; split))
  all_goals simp

@[simp] theorem takeOpen_posts (s : State) (b : List Byte) :
    (takeOpen b s).link.receiver = s.link.receiver ∧ (takeOpen b s).link.requests = s.link.requests ∧
    (takeOpen b s).link.job = s.link.job ∧ (takeOpen b s).link.replies = s.link.replies ∧
    (takeOpen b s).link.errors = s.link.errors ∧ (takeOpen b s).link.sending = s.link.sending := by
  unfold takeOpen
  repeat' (first | split | (dsimp only; split))
  all_goals simp

@[simp] theorem takeData_posts (s : State) (b : List Byte) :
    (takeData b s).link.receiver = s.link.receiver ∧ (takeData b s).link.requests = s.link.requests ∧
    (takeData b s).link.job = s.link.job ∧ (takeData b s).link.replies = s.link.replies ∧
    (takeData b s).link.errors = s.link.errors ∧ (takeData b s).link.sending = s.link.sending := by
  unfold takeData
  repeat' (first | split | (dsimp only; split))
  all_goals simp

@[simp] theorem takeClose_posts (s : State) (b : List Byte) :
    (takeClose b s).link.receiver = s.link.receiver ∧ (takeClose b s).link.requests = s.link.requests ∧
    (takeClose b s).link.job = s.link.job ∧ (takeClose b s).link.replies = s.link.replies ∧
    (takeClose b s).link.errors = s.link.errors ∧ (takeClose b s).link.sending = s.link.sending := by
  unfold takeClose
  repeat' (first | split | (dsimp only; split))
  all_goals simp

@[simp] theorem takeBadFrame_posts (s : State) (k : Byte) :
    (takeBadFrame k s).link.receiver = s.link.receiver ∧ (takeBadFrame k s).link.requests = s.link.requests ∧
    (takeBadFrame k s).link.job = s.link.job ∧ (takeBadFrame k s).link.replies = s.link.replies ∧
    (takeBadFrame k s).link.errors = s.link.errors ∧ (takeBadFrame k s).link.sending = s.link.sending := by
  unfold takeBadFrame
  repeat' (first | split | (dsimp only; split))
  all_goals simp

@[simp] theorem takeLoss_posts (s : State) :
    (takeLoss s).link.receiver = s.link.receiver ∧ (takeLoss s).link.requests = s.link.requests ∧
    (takeLoss s).link.job = s.link.job ∧ (takeLoss s).link.replies = s.link.replies ∧
    (takeLoss s).link.errors = s.link.errors ∧ (takeLoss s).link.sending = s.link.sending := by
  unfold takeLoss
  repeat' (first | split | (dsimp only; split))
  all_goals simp

/-! ### Render -/

@[simp] theorem renderDamage_posts (s : State) (p : Plate) (h : Header) (c : Cause) (a b : Nat) :
    (s.renderDamage p h c a b).link.receiver = s.link.receiver ∧
    (s.renderDamage p h c a b).link.requests = s.link.requests ∧ (s.renderDamage p h c a b).link.job = s.link.job ∧
    (s.renderDamage p h c a b).link.replies = s.link.replies ∧
    (s.renderDamage p h c a b).link.errors = s.link.errors ∧
    (s.renderDamage p h c a b).link.sending = s.link.sending := by
  unfold State.renderDamage
  repeat' (first | split | (dsimp only; split))
  all_goals simp

@[simp] theorem codeRecord_posts (s : State) (k : Work) (e : Nat) :
    (s.codeRecord k e).link.receiver = s.link.receiver ∧ (s.codeRecord k e).link.requests = s.link.requests ∧
    (s.codeRecord k e).link.job = s.link.job ∧ (s.codeRecord k e).link.replies = s.link.replies ∧
    (s.codeRecord k e).link.errors = s.link.errors ∧ (s.codeRecord k e).link.sending = s.link.sending := by
  unfold State.codeRecord
  repeat' (first | split | (dsimp only; split))
  all_goals simp

@[simp] theorem contentRecord_posts (s : State) (k : Work) :
    (s.contentRecord k).link.receiver = s.link.receiver ∧ (s.contentRecord k).link.requests = s.link.requests ∧
    (s.contentRecord k).link.job = s.link.job ∧ (s.contentRecord k).link.replies = s.link.replies ∧
    (s.contentRecord k).link.errors = s.link.errors ∧ (s.contentRecord k).link.sending = s.link.sending := by
  unfold State.contentRecord
  repeat' (first | split | (dsimp only; split))
  all_goals simp

@[simp] theorem stepDecoder_posts (s : State) (d e : Decode) :
    (s.stepDecoder d e).link.receiver = s.link.receiver ∧ (s.stepDecoder d e).link.requests = s.link.requests ∧
    (s.stepDecoder d e).link.job = s.link.job ∧ (s.stepDecoder d e).link.replies = s.link.replies ∧
    (s.stepDecoder d e).link.errors = s.link.errors ∧ (s.stepDecoder d e).link.sending = s.link.sending := by
  unfold State.stepDecoder
  repeat' (first | split | (dsimp only; split))
  all_goals simp

@[simp] theorem tellReady_posts (s : State) (a b : Nat) :
    (s.tellReady a b).link.receiver = s.link.receiver ∧ (s.tellReady a b).link.requests = s.link.requests ∧
    (s.tellReady a b).link.job = s.link.job ∧ (s.tellReady a b).link.replies = s.link.replies ∧
    (s.tellReady a b).link.errors = s.link.errors ∧ (s.tellReady a b).link.sending = s.link.sending := by
  unfold State.tellReady
  repeat' (first | split | (dsimp only; split))
  all_goals simp

@[simp] theorem advanceBand_posts (s : State) (p : Plate) (b : Band) (h : Header) :
    (s.advanceBand p b h).link.receiver = s.link.receiver ∧ (s.advanceBand p b h).link.requests = s.link.requests ∧
    (s.advanceBand p b h).link.job = s.link.job ∧ (s.advanceBand p b h).link.replies = s.link.replies ∧
    (s.advanceBand p b h).link.errors = s.link.errors ∧ (s.advanceBand p b h).link.sending = s.link.sending := by
  unfold State.advanceBand
  repeat' (first | split | (dsimp only; split))
  all_goals simp

@[simp] theorem endRenderCore_posts (s : State) (d : SegKind) (k : Work) :
    (s.endRenderCore d k).link.receiver = s.link.receiver ∧ (s.endRenderCore d k).link.requests = s.link.requests ∧
    (s.endRenderCore d k).link.job = s.link.job ∧ (s.endRenderCore d k).link.replies = s.link.replies ∧
    (s.endRenderCore d k).link.errors = s.link.errors ∧ (s.endRenderCore d k).link.sending = s.link.sending := by
  unfold State.endRenderCore
  repeat' (first | split | (dsimp only; split))
  all_goals simp

@[simp] theorem endRender_posts (s : State) (d : SegKind) (k : Work) :
    (s.endRender d k).link.receiver = s.link.receiver ∧ (s.endRender d k).link.requests = s.link.requests ∧
    (s.endRender d k).link.job = s.link.job ∧ (s.endRender d k).link.replies = s.link.replies ∧
    (s.endRender d k).link.errors = s.link.errors ∧ (s.endRender d k).link.sending = s.link.sending := by
  unfold State.endRender
  repeat' (first | split | (dsimp only; split))
  all_goals simp

@[simp] theorem endDecode_posts (s : State) (d : Decode) :
    (endDecode d s).link.receiver = s.link.receiver ∧ (endDecode d s).link.requests = s.link.requests ∧
    (endDecode d s).link.job = s.link.job ∧ (endDecode d s).link.replies = s.link.replies ∧
    (endDecode d s).link.errors = s.link.errors ∧ (endDecode d s).link.sending = s.link.sending := by
  unfold endDecode
  repeat' (first | split | (dsimp only; split))
  all_goals simp

/-! ### Fetch -/

@[simp] theorem discardLate_posts (s : State) (id b c : Nat) :
    (s.discardLate id b c).link.receiver = s.link.receiver ∧ (s.discardLate id b c).link.requests = s.link.requests ∧
    (s.discardLate id b c).link.job = s.link.job ∧ (s.discardLate id b c).link.replies = s.link.replies ∧
    (s.discardLate id b c).link.errors = s.link.errors ∧ (s.discardLate id b c).link.sending = s.link.sending := by
  unfold State.discardLate
  repeat' (first | split | (dsimp only; split))
  all_goals simp

@[simp] theorem starve_posts (s : State) (p : Plate) (c b : Nat) (x : Band) :
    (s.starve p c b x).link.receiver = s.link.receiver ∧ (s.starve p c b x).link.requests = s.link.requests ∧
    (s.starve p c b x).link.job = s.link.job ∧ (s.starve p c b x).link.replies = s.link.replies ∧
    (s.starve p c b x).link.errors = s.link.errors ∧ (s.starve p c b x).link.sending = s.link.sending := by
  unfold State.starve
  repeat' (first | split | (dsimp only; split))
  all_goals simp

@[simp] theorem decideBand_posts (s : State) (b : Nat) :
    (s.decideBand b).link.receiver = s.link.receiver ∧ (s.decideBand b).link.requests = s.link.requests ∧
    (s.decideBand b).link.job = s.link.job ∧ (s.decideBand b).link.replies = s.link.replies ∧
    (s.decideBand b).link.errors = s.link.errors ∧ (s.decideBand b).link.sending = s.link.sending := by
  unfold State.decideBand
  repeat' (first | split | (dsimp only; split))
  all_goals simp

@[simp] theorem beginLine_posts (s : State) (l : Nat) :
    (s.beginLine l).link.receiver = s.link.receiver ∧ (s.beginLine l).link.requests = s.link.requests ∧
    (s.beginLine l).link.job = s.link.job ∧ (s.beginLine l).link.replies = s.link.replies ∧
    (s.beginLine l).link.errors = s.link.errors ∧ (s.beginLine l).link.sending = s.link.sending := by
  unfold State.beginLine
  repeat' (first | split | (dsimp only; split))
  all_goals simp

/-! ### Marks -/

@[simp] theorem newUnderrun_posts (s : State) (p : Plate) (c sw : Nat) :
    (s.newUnderrun p c sw).link.receiver = s.link.receiver ∧ (s.newUnderrun p c sw).link.requests = s.link.requests ∧
    (s.newUnderrun p c sw).link.job = s.link.job ∧ (s.newUnderrun p c sw).link.replies = s.link.replies ∧
    (s.newUnderrun p c sw).link.errors = s.link.errors ∧ (s.newUnderrun p c sw).link.sending = s.link.sending := by
  unfold State.newUnderrun
  repeat' (first | split | (dsimp only; split))
  all_goals simp

@[simp] theorem noteUnderrun_posts (s : State) (p : Plate) (c sw : Nat) :
    (s.noteUnderrun p c sw).link.receiver = s.link.receiver ∧
    (s.noteUnderrun p c sw).link.requests = s.link.requests ∧ (s.noteUnderrun p c sw).link.job = s.link.job ∧
    (s.noteUnderrun p c sw).link.replies = s.link.replies ∧ (s.noteUnderrun p c sw).link.errors = s.link.errors ∧
    (s.noteUnderrun p c sw).link.sending = s.link.sending := by
  unfold State.noteUnderrun
  repeat' (first | split | (dsimp only; split))
  all_goals simp

@[simp] theorem setSignature_posts (s : State) (p : Plate) (c b l : Nat) (x : Crc32) :
    (s.setSignature p c b l x).link.receiver = s.link.receiver ∧
    (s.setSignature p c b l x).link.requests = s.link.requests ∧ (s.setSignature p c b l x).link.job = s.link.job ∧
    (s.setSignature p c b l x).link.replies = s.link.replies ∧
    (s.setSignature p c b l x).link.errors = s.link.errors ∧
    (s.setSignature p c b l x).link.sending = s.link.sending := by
  unfold State.setSignature
  repeat' (first | split | (dsimp only; split))
  all_goals simp

@[simp] theorem feedLine_posts (s : State) (p : Plate) (c l : Nat) (b : List Byte) :
    (s.feedLine p c l b).link.receiver = s.link.receiver ∧ (s.feedLine p c l b).link.requests = s.link.requests ∧
    (s.feedLine p c l b).link.job = s.link.job ∧ (s.feedLine p c l b).link.replies = s.link.replies ∧
    (s.feedLine p c l b).link.errors = s.link.errors ∧ (s.feedLine p c l b).link.sending = s.link.sending := by
  unfold State.feedLine
  repeat' (first | split | (dsimp only; split))
  all_goals simp

@[simp] theorem feedLines_posts (p : Plate) (c n : Nat) (l : List (List Byte)) (s : State) :
    (feedLines p c n l s).link.receiver = s.link.receiver ∧ (feedLines p c n l s).link.requests = s.link.requests ∧
    (feedLines p c n l s).link.job = s.link.job ∧ (feedLines p c n l s).link.replies = s.link.replies ∧
    (feedLines p c n l s).link.errors = s.link.errors ∧ (feedLines p c n l s).link.sending = s.link.sending := by
  induction l generalizing s n with
  | nil => simp [feedLines]
  | cons a rest ih =>
    unfold feedLines
    split
    · simpa using ih (n + 1) (s.feedLine p c n a)
    · exact ih (n + 1) s

@[simp] theorem handSwath_posts (s : State) (t : Taken) (p : Plate) (sw : Nat) (u : Bool) (l : List (List Byte)) :
    (s.handSwath t p sw u l).link.receiver = s.link.receiver ∧
    (s.handSwath t p sw u l).link.requests = s.link.requests ∧ (s.handSwath t p sw u l).link.job = s.link.job ∧
    (s.handSwath t p sw u l).link.replies = s.link.replies ∧ (s.handSwath t p sw u l).link.errors = s.link.errors ∧
    (s.handSwath t p sw u l).link.sending = s.link.sending := by
  unfold State.handSwath
  repeat' (first | split | (dsimp only; split))
  all_goals simp

/-! ### Monitor -/

@[simp] theorem blindFailure_posts (s : State) (t : Taken) (p : Plate) (o : RefOutcome) (n : Nat) :
    (s.blindFailure t p o n).link.receiver = s.link.receiver ∧
    (s.blindFailure t p o n).link.requests = s.link.requests ∧ (s.blindFailure t p o n).link.job = s.link.job ∧
    (s.blindFailure t p o n).link.replies = s.link.replies ∧ (s.blindFailure t p o n).link.errors = s.link.errors ∧
    (s.blindFailure t p o n).link.sending = s.link.sending := by
  unfold State.blindFailure
  repeat' (first | split | (dsimp only; split))
  all_goals simp

@[simp] theorem judgeEpisode_posts (s : State) (t : Taken) (p : Plate) (k : Fin 4) (x : BeamStatus) (y : Option Nat) :
    (s.judgeEpisode t p k x y).link.receiver = s.link.receiver ∧
    (s.judgeEpisode t p k x y).link.requests = s.link.requests ∧ (s.judgeEpisode t p k x y).link.job = s.link.job ∧
    (s.judgeEpisode t p k x y).link.replies = s.link.replies ∧
    (s.judgeEpisode t p k x y).link.errors = s.link.errors ∧
    (s.judgeEpisode t p k x y).link.sending = s.link.sending := by
  unfold State.judgeEpisode
  repeat' (first | split | (dsimp only; split))
  all_goals simp

@[simp] theorem judge_posts (s : State) (k : Fin 4) (x : BeamStatus) (y : Option Nat) :
    (s.judge k x y).link.receiver = s.link.receiver ∧ (s.judge k x y).link.requests = s.link.requests ∧
    (s.judge k x y).link.job = s.link.job ∧ (s.judge k x y).link.replies = s.link.replies ∧
    (s.judge k x y).link.errors = s.link.errors ∧ (s.judge k x y).link.sending = s.link.sending := by
  unfold State.judge
  repeat' (first | split | (dsimp only; split))
  all_goals simp

@[simp] theorem judgeRef_posts (s : State) (o : RefOutcome) (n : Nat) :
    (s.judgeRef o n).link.receiver = s.link.receiver ∧ (s.judgeRef o n).link.requests = s.link.requests ∧
    (s.judgeRef o n).link.job = s.link.job ∧ (s.judgeRef o n).link.replies = s.link.replies ∧
    (s.judgeRef o n).link.errors = s.link.errors ∧ (s.judgeRef o n).link.sending = s.link.sending := by
  unfold State.judgeRef
  repeat' (first | split | (dsimp only; split))
  all_goals simp

@[simp] theorem scanAfterRef_posts (s : State) (o : RefOutcome) :
    (s.scanAfterRef o).link.receiver = s.link.receiver ∧ (s.scanAfterRef o).link.requests = s.link.requests ∧
    (s.scanAfterRef o).link.job = s.link.job ∧ (s.scanAfterRef o).link.replies = s.link.replies ∧
    (s.scanAfterRef o).link.errors = s.link.errors ∧ (s.scanAfterRef o).link.sending = s.link.sending := by
  unfold State.scanAfterRef
  repeat' (first | split | (dsimp only; split))
  all_goals simp

@[simp] theorem endRef_posts (s : State) (o : RefOutcome) (a b : Nat) :
    (s.endRef o a b).link.receiver = s.link.receiver ∧ (s.endRef o a b).link.requests = s.link.requests ∧
    (s.endRef o a b).link.job = s.link.job ∧ (s.endRef o a b).link.replies = s.link.replies ∧
    (s.endRef o a b).link.errors = s.link.errors ∧ (s.endRef o a b).link.sending = s.link.sending := by
  unfold State.endRef
  repeat' (first | split | (dsimp only; split))
  all_goals simp

@[simp] theorem scanAfterBeam_posts (s : State) (k : Fin 4) (x : BeamStatus) (y z : Option Nat) (a b : Nat) :
    (s.scanAfterBeam k x y z a b).link.receiver = s.link.receiver ∧
    (s.scanAfterBeam k x y z a b).link.requests = s.link.requests ∧
    (s.scanAfterBeam k x y z a b).link.job = s.link.job ∧
    (s.scanAfterBeam k x y z a b).link.replies = s.link.replies ∧
    (s.scanAfterBeam k x y z a b).link.errors = s.link.errors ∧
    (s.scanAfterBeam k x y z a b).link.sending = s.link.sending := by
  unfold State.scanAfterBeam
  repeat' (first | split | (dsimp only; split))
  all_goals simp

@[simp] theorem endBeam_posts (s : State) (k : Fin 4) (a b : Nat) (y : Option Nat) :
    (s.endBeam k a b y).link.receiver = s.link.receiver ∧ (s.endBeam k a b y).link.requests = s.link.requests ∧
    (s.endBeam k a b y).link.job = s.link.job ∧ (s.endBeam k a b y).link.replies = s.link.replies ∧
    (s.endBeam k a b y).link.errors = s.link.errors ∧ (s.endBeam k a b y).link.sending = s.link.sending := by
  unfold State.endBeam
  repeat' (first | split | (dsimp only; split))
  all_goals simp

@[simp] theorem cutStep_posts (s : State) (a b : Nat) :
    (s.cutStep a b).link.receiver = s.link.receiver ∧ (s.cutStep a b).link.requests = s.link.requests ∧
    (s.cutStep a b).link.job = s.link.job ∧ (s.cutStep a b).link.replies = s.link.replies ∧
    (s.cutStep a b).link.errors = s.link.errors ∧ (s.cutStep a b).link.sending = s.link.sending := by
  unfold State.cutStep
  repeat' (first | split | (dsimp only; split))
  all_goals simp

/-! ### Exposure -/

@[simp] theorem authorise_posts (s : State) (id : Nat) :
    (s.authorise id).link.receiver = s.link.receiver ∧ (s.authorise id).link.requests = s.link.requests ∧
    (s.authorise id).link.job = s.link.job ∧ (s.authorise id).link.replies = s.link.replies ∧
    (s.authorise id).link.errors = s.link.errors ∧ (s.authorise id).link.sending = s.link.sending := by
  unfold State.authorise
  repeat' (first | split | (dsimp only; split))
  all_goals simp

@[simp] theorem enterExposing_posts (s : State) (a b : Nat) :
    (s.enterExposing a b).link.receiver = s.link.receiver ∧ (s.enterExposing a b).link.requests = s.link.requests ∧
    (s.enterExposing a b).link.job = s.link.job ∧ (s.enterExposing a b).link.replies = s.link.replies ∧
    (s.enterExposing a b).link.errors = s.link.errors ∧ (s.enterExposing a b).link.sending = s.link.sending := by
  unfold State.enterExposing
  repeat' (first | split | (dsimp only; split))
  all_goals simp

@[simp] theorem indexExposing_posts (s : State) :
    (s.indexExposing).link.receiver = s.link.receiver ∧ (s.indexExposing).link.requests = s.link.requests ∧
    (s.indexExposing).link.job = s.link.job ∧ (s.indexExposing).link.replies = s.link.replies ∧
    (s.indexExposing).link.errors = s.link.errors ∧ (s.indexExposing).link.sending = s.link.sending := by
  unfold State.indexExposing
  repeat' (first | split | (dsimp only; split))
  all_goals simp

@[simp] theorem takeIndex_posts (s : State) (a b : Nat) :
    (s.takeIndex a b).link.receiver = s.link.receiver ∧ (s.takeIndex a b).link.requests = s.link.requests ∧
    (s.takeIndex a b).link.job = s.link.job ∧ (s.takeIndex a b).link.replies = s.link.replies ∧
    (s.takeIndex a b).link.errors = s.link.errors ∧ (s.takeIndex a b).link.sending = s.link.sending := by
  unfold State.takeIndex
  repeat' (first | split | (dsimp only; split))
  all_goals simp

@[simp] theorem exposeSwath_posts (s : State) (t : Taken) (p : Plate) (sw : Nat) :
    (s.exposeSwath t p sw).link.receiver = s.link.receiver ∧ (s.exposeSwath t p sw).link.requests = s.link.requests ∧
    (s.exposeSwath t p sw).link.job = s.link.job ∧ (s.exposeSwath t p sw).link.replies = s.link.replies ∧
    (s.exposeSwath t p sw).link.errors = s.link.errors ∧ (s.exposeSwath t p sw).link.sending = s.link.sending := by
  unfold State.exposeSwath
  repeat' (first | split | (dsimp only; split))
  all_goals simp

@[simp] theorem skipLine_posts (s : State) (l : Nat) :
    (s.skipLine l).link.receiver = s.link.receiver ∧ (s.skipLine l).link.requests = s.link.requests ∧
    (s.skipLine l).link.job = s.link.job ∧ (s.skipLine l).link.replies = s.link.replies ∧
    (s.skipLine l).link.errors = s.link.errors ∧ (s.skipLine l).link.sending = s.link.sending := by
  unfold State.skipLine
  repeat' (first | split | (dsimp only; split))
  all_goals simp

theorem skipLines_posts (l : List Nat) (s : State) :
    (l.foldl State.skipLine s).link.receiver = s.link.receiver ∧
    (l.foldl State.skipLine s).link.requests = s.link.requests ∧ (l.foldl State.skipLine s).link.job = s.link.job ∧
    (l.foldl State.skipLine s).link.replies = s.link.replies ∧
    (l.foldl State.skipLine s).link.errors = s.link.errors ∧
    (l.foldl State.skipLine s).link.sending = s.link.sending := by
  induction l generalizing s with
  | nil => simp
  | cons a rest ih => simpa using ih (s.skipLine a)

@[simp] theorem skipTo_posts (s : State) (sw : Nat) :
    (s.skipTo sw).link.receiver = s.link.receiver ∧ (s.skipTo sw).link.requests = s.link.requests ∧
    (s.skipTo sw).link.job = s.link.job ∧ (s.skipTo sw).link.replies = s.link.replies ∧
    (s.skipTo sw).link.errors = s.link.errors ∧ (s.skipTo sw).link.sending = s.link.sending := by
  unfold State.skipTo
  dsimp only
  split
  · simp [skipLines_posts]
  · simp

@[simp] theorem underrunSwath_posts (s : State) (sw : Nat) :
    (s.underrunSwath sw).link.receiver = s.link.receiver ∧ (s.underrunSwath sw).link.requests = s.link.requests ∧
    (s.underrunSwath sw).link.job = s.link.job ∧ (s.underrunSwath sw).link.replies = s.link.replies ∧
    (s.underrunSwath sw).link.errors = s.link.errors ∧ (s.underrunSwath sw).link.sending = s.link.sending := by
  unfold State.underrunSwath
  repeat' (first | split | (dsimp only; split))
  all_goals simp

@[simp] theorem takeSwath_posts (s : State) (t : Taken) (p : Plate) :
    (s.takeSwath t p).link.receiver = s.link.receiver ∧ (s.takeSwath t p).link.requests = s.link.requests ∧
    (s.takeSwath t p).link.job = s.link.job ∧ (s.takeSwath t p).link.replies = s.link.replies ∧
    (s.takeSwath t p).link.errors = s.link.errors ∧ (s.takeSwath t p).link.sending = s.link.sending := by
  unfold State.takeSwath
  repeat' (first | split | (dsimp only; split))
  all_goals simp

@[simp] theorem edgeExposing_posts (s : State) (a b : Nat) :
    (s.edgeExposing a b).link.receiver = s.link.receiver ∧ (s.edgeExposing a b).link.requests = s.link.requests ∧
    (s.edgeExposing a b).link.job = s.link.job ∧ (s.edgeExposing a b).link.replies = s.link.replies ∧
    (s.edgeExposing a b).link.errors = s.link.errors ∧ (s.edgeExposing a b).link.sending = s.link.sending := by
  unfold State.edgeExposing
  repeat' (first | split | (dsimp only; split))
  all_goals simp

@[simp] theorem takeEdge_posts (s : State) (a b : Nat) :
    (s.takeEdge a b).link.receiver = s.link.receiver ∧ (s.takeEdge a b).link.requests = s.link.requests ∧
    (s.takeEdge a b).link.job = s.link.job ∧ (s.takeEdge a b).link.replies = s.link.replies ∧
    (s.takeEdge a b).link.errors = s.link.errors ∧ (s.takeEdge a b).link.sending = s.link.sending := by
  unfold State.takeEdge
  repeat' (first | split | (dsimp only; split))
  all_goals simp

@[simp] theorem readyFalls_posts (s : State) :
    (s.readyFalls).link.receiver = s.link.receiver ∧ (s.readyFalls).link.requests = s.link.requests ∧
    (s.readyFalls).link.job = s.link.job ∧ (s.readyFalls).link.replies = s.link.replies ∧
    (s.readyFalls).link.errors = s.link.errors ∧ (s.readyFalls).link.sending = s.link.sending := by
  unfold State.readyFalls
  repeat' (first | split | (dsimp only; split))
  all_goals simp

end Sys2Proof.Machine
end

