-- ==== Sys2Proof/Laws/Steps.lean ====
section
/-! SUPPORT. What a command can do, said once: how a command is taken (`event`, `eventWhen`, `carryOut`, `takeFrame`), and
`exec_next`, which names for every command the operation behind each next state it answers. -/

namespace Sys2Proof.Machine

/-! ### How a command is taken -/

theorem event_taken (s : State) (f : State → State) (h : s.pins.resetAsserted = false) :
    s.event f = .next (f s).testStall := by simp [State.event, h]

theorem eventWhen_taken (s : State) (due : Bool) (f : State → State) (h : s.pins.resetAsserted = false)
    (hd : due = true) : s.eventWhen due f = .next (f s).testStall := by simp [State.eventWhen, State.event, h, hd]

theorem eventWhen_not_due (s : State) (due : Bool) (f : State → State) (hd : due = false) :
    s.eventWhen due f = .next s := by simp [State.eventWhen, hd]

theorem event_next {s t : State} {f : State → State} (h : s.event f = .next t) : t = s ∨ t = (f s).testStall := by
  unfold State.event at h
  split at h <;> injection h with h <;> simp [h]

theorem eventWhen_next {s t : State} {due : Bool} {f : State → State} (h : s.eventWhen due f = .next t) :
    t = s ∨ t = (f s).testStall := by
  unfold State.eventWhen at h
  split at h
  · exact event_next h
  · injection h with h; simp [h]

theorem carryOut_next {s t : State} {kind : Byte} {f : Message → State → State} (h : s.carryOut kind f = .next t) :
    t = s ∨ ∃ m, m ∈ s.link.requests ∧ t = (f m s).testStall := by
  unfold State.carryOut at h
  split at h
  next m hm =>
    split at h
    · injection h with h
      refine .inr ⟨m, ?_, h.symm⟩
      unfold State.due at hm
      split at hm
      · cases hm
      · exact List.mem_of_mem_head? hm
    · injection h with h; simp [h]
  · injection h with h; simp [h]

theorem takeFrame_next {s t : State} {kind : Byte} {f : List Byte → State → State} (h : s.takeFrame kind f = .next t) :
    t = s ∨ ∃ body, t = (f body s).testStall := by
  unfold State.takeFrame at h
  split at h
  next body _ => exact (event_next h).imp_right fun e => ⟨body, e⟩
  · injection h with h; simp [h]

/-- A request that is due stands in a buffer with no request being carried out and a place for its reply. -/
theorem due_some {s : State} {m : Message} (h : s.due = some m) :
    s.pins.resetAsserted = false ∧ s.link.job = none ∧ s.link.replies.length < 8 ∧ ∃ rest, s.link.requests = m :: rest := by
  unfold State.due at h
  split at h
  · cases h
  next hn =>
    simp only [Bool.or_eq_true, decide_eq_true_eq, not_or, Bool.not_eq_true, Option.isSome_eq_false_iff,
      Option.isNone_iff_eq_none, Nat.not_le] at hn
    refine ⟨hn.1.1, hn.1.2, hn.2, ?_⟩
    rcases hq : s.link.requests with _ | ⟨a, r⟩
    · simp [hq] at h
    · simp [hq] at h; exact ⟨r, by rw [h]⟩

/-- The request at the head of the buffer is due where the conditions of R175 hold. -/
theorem due_of_heads {s : State} {m : Message} {rest : List Message} (hr : s.pins.resetAsserted = false)
    (hj : s.link.job = none) (hq : s.link.requests = m :: rest) (hl : s.link.replies.length < 8) : s.due = some m := by
  simp [State.due, hr, hj, hq, hl]

theorem carryOut_taken {s : State} {m : Message} {rest : List Message} (hr : s.pins.resetAsserted = false)
    (hj : s.link.job = none) (hq : s.link.requests = m :: rest) (hl : s.link.replies.length < 8)
    (f : Message → State → State) : s.carryOut m.kind f = .next (f m s).testStall := by
  simp [State.carryOut, due_of_heads hr hj hq hl]

/-! ### What a command can do -/

/-- The operation behind a next state of a command. -/
def Effect (c : Instr) (s u : State) : Prop :=
  match c with
  | .plateDefine => ∃ m, s.due = some m ∧ u = plateDefine m s
  | .plateRelease => ∃ m, s.due = some m ∧ u = plateRelease m s
  | .plateAbort => ∃ m, s.due = some m ∧ u = plateAbort m s
  | .bandQuery => ∃ m, s.due = some m ∧ u = bandQuery m s
  | .feedClear => ∃ m, s.due = some m ∧ u = feedClear m s
  | .screenBegin => ∃ m, s.due = some m ∧ u = screenBegin m s
  | .screenTable => ∃ m, s.due = some m ∧ u = screenTable m s
  | .screenEnd => ∃ m, s.due = some m ∧ u = screenEnd m s
  | .plateExpose => ∃ m, s.due = some m ∧ u = plateExpose m s
  | .exposeSetup => ∃ m, s.due = some m ∧ u = exposeSetup m s
  | .monitorRead => ∃ m, s.due = some m ∧ u = monitorRead m s
  | .monitorMeasure => ∃ m, s.due = some m ∧ u = monitorMeasure m s
  | .monitorStop => ∃ m, s.due = some m ∧ u = monitorStop m s
  | .stampLoad => ∃ m, s.due = some m ∧ u = stampLoad m s
  | .plateReport => ∃ m, s.due = some m ∧ u = plateReport m s
  | .status => ∃ m, s.due = some m ∧ u = statusRequest m s
  | .softReset => ∃ m, s.due = some m ∧ u = resetRequest m s
  | .unknownRequestKind => ∃ m, s.due = some m ∧ u = s.answer .badArg []
  | .messageReceived kind tag body crc => u = s.withLink (s.link.judge ⟨kind, tag, body⟩ (messageGood kind tag body crc))
  | .messageLengthTooLong _ | .messageGap => u = s.withLink s.link.error
  | .transmitReply | .transmitNotice | .messageSent => u = s.sendNext
  | .resetPinAsserted => u = s.assertReset
  | .powerOnReset address rate => u = s.powerOn address rate
  | .frameArrivalStart kind length => u = s.frameStart kind length.toNat
  | .frameArrivalEnd body crc => u = s.withFeed (s.feed.endFrame body crc)
  | .feedFrameGap => u = (s.withFeed s.feed.cutFrame).testHold
  | .selectFrame => ∃ body, u = takeSelect body s
  | .openFrame => ∃ body, u = takeOpen body s
  | .dataFrame => ∃ body, u = takeData body s
  | .closeFrame => ∃ body, u = takeClose body s
  | .checkErrorFrame => ∃ kind, u = takeBadFrame kind s
  | .lossMark => u = takeLoss s
  | .renderStart kind => ∃ e, s.segs.queue.find? (s.offered kind) = some e ∧ s.rendererFree kind = true ∧ u = s.startRender e
  | .lineDecodeEnd => ∃ d, s.decoder = some d ∧ d.over = true ∧ u = endDecode d s
  | .screenRenderEnd => ∃ d, s.screener = some d ∧ d.over = true ∧ u = s.endRender .tone d.work
  | .burstGrant => ∃ b, s.nextBurst = some b ∧ s.arbiter.burst = none ∧ u = s.grant b
  | .burstDone => ∃ b, s.arbiter.burst = some b ∧ b.inside = true ∧ u = s.finishBurst b
  | .fetchLineBegin => s.fetchDue = true ∧ u = s.beginLine s.engine.fetchPos
  | .index ticks pulses => u = s.takeIndex ticks.toNat pulses.toNat
  | .imageEdge ticks pulses => u = s.takeEdge ticks.toNat pulses.toNat
  | .drumReadyFall => u = s.setDrumReady false ∨ u = (s.setDrumReady false).readyFalls
  | .drumReadyRise => u = s.setDrumReady true ∨ u = (s.setDrumReady true).readyRises
  | .indexWatchdogExpiry => s.watchdogArmed = true ∧ u = s.drumFault .watchdog
  | .refStepEnd pulses =>
    s.monitor.step = .ref
      ∧ u = s.endRef (if 64 ≤ pulses.toNat then .valid else .fault) s.monitor.stepGate pulses.toNat
  | .beamStepPulseEnd ticks => ∃ k n1, s.measuring = some (k, n1) ∧ u = s.endBeam k ticks.toNat n1 (some ticks.toNat)
  | .beamStepGateTimeout pulses => ∃ k n1, s.measuring = some (k, n1) ∧ u = s.endBeam k counterTop pulses.toNat none
  | .syncByteReceived => u = s.withLink { s.link with receiver := .receiving }

/-- A next state is the state itself, or the operation of the command, INTAKE STALL tested after it. -/
def Reached (c : Instr) (s t : State) : Prop := t = s ∨ ∃ u, Effect c s u ∧ (t = u ∨ t = u.testStall)

section shapes
variable {c : Instr} {s t : State}

theorem reached_event {f : State → State} (h : s.event f = .next t) (hf : Effect c s (f s)) : Reached c s t :=
  (event_next h).imp_right fun e => ⟨_, hf, .inr e⟩

theorem reached_eventWhen {due : Bool} {f : State → State} (h : s.eventWhen due f = .next t)
    (hf : due = true → Effect c s (f s)) : Reached c s t := by
  unfold State.eventWhen at h
  split at h
  next hd => exact reached_event h (hf hd)
  · injection h with h; exact .inl h.symm

theorem reached_carryOut {kind : Byte} {f : Message → State → State} (h : s.carryOut kind f = .next t)
    (hf : ∀ m, s.due = some m → Effect c s (f m s)) : Reached c s t := by
  unfold State.carryOut at h
  split at h
  next m hm =>
    split at h
    · injection h with h; exact .inr ⟨_, hf m hm, .inr h.symm⟩
    · injection h with h; exact .inl h.symm
  · injection h with h; exact .inl h.symm

theorem reached_takeFrame {kind : Byte} {f : List Byte → State → State} (h : s.takeFrame kind f = .next t)
    (hf : ∀ body, Effect c s (f body s)) : Reached c s t :=
  (takeFrame_next h).imp_right fun ⟨body, e⟩ => ⟨_, hf body, .inr e⟩

end shapes

/-- What a command can do: every next state is reached by its operation. -/
theorem exec_next {c : Instr} {s t : State} (h : exec c s = .next t) : Reached c s t := by
  cases c <;> simp only [exec] at h
  case plateDefine => exact reached_carryOut h fun m hm => ⟨m, hm, rfl⟩
  case plateRelease => exact reached_carryOut h fun m hm => ⟨m, hm, rfl⟩
  case plateAbort => exact reached_carryOut h fun m hm => ⟨m, hm, rfl⟩
  case bandQuery => exact reached_carryOut h fun m hm => ⟨m, hm, rfl⟩
  case feedClear => exact reached_carryOut h fun m hm => ⟨m, hm, rfl⟩
  case screenBegin => exact reached_carryOut h fun m hm => ⟨m, hm, rfl⟩
  case screenTable => exact reached_carryOut h fun m hm => ⟨m, hm, rfl⟩
  case screenEnd => exact reached_carryOut h fun m hm => ⟨m, hm, rfl⟩
  case plateExpose => exact reached_carryOut h fun m hm => ⟨m, hm, rfl⟩
  case exposeSetup => exact reached_carryOut h fun m hm => ⟨m, hm, rfl⟩
  case monitorRead => exact reached_carryOut h fun m hm => ⟨m, hm, rfl⟩
  case monitorMeasure => exact reached_carryOut h fun m hm => ⟨m, hm, rfl⟩
  case monitorStop => exact reached_carryOut h fun m hm => ⟨m, hm, rfl⟩
  case stampLoad => exact reached_carryOut h fun m hm => ⟨m, hm, rfl⟩
  case plateReport => exact reached_carryOut h fun m hm => ⟨m, hm, rfl⟩
  case status => exact reached_carryOut h fun m hm => ⟨m, hm, rfl⟩
  case softReset => exact reached_carryOut h fun m hm => ⟨m, hm, rfl⟩
  case unknownRequestKind =>
    unfold execUnknownRequestKind at h
    split at h
    next m hm =>
      split at h
      · injection h with h; exact .inl h.symm
      · injection h with h; exact .inr ⟨_, ⟨m, hm, rfl⟩, .inr h.symm⟩
    · injection h with h; exact .inl h.symm
  case messageReceived => exact reached_eventWhen h fun _ => rfl
  case messageLengthTooLong => exact reached_eventWhen h fun _ => rfl
  case messageGap => exact reached_eventWhen h fun _ => rfl
  case transmitReply => exact reached_eventWhen h fun _ => rfl
  case transmitNotice => exact reached_eventWhen h fun _ => rfl
  case messageSent => exact reached_eventWhen h fun _ => rfl
  case resetPinAsserted => injection h with h; exact .inr ⟨_, rfl, .inl h.symm⟩
  case powerOnReset => injection h with h; exact .inr ⟨_, rfl, .inl h.symm⟩
  case frameArrivalStart => exact reached_eventWhen h fun _ => rfl
  case frameArrivalEnd => exact reached_eventWhen h fun _ => rfl
  case feedFrameGap => exact reached_eventWhen h fun _ => rfl
  case selectFrame => exact reached_takeFrame h fun body => ⟨body, rfl⟩
  case openFrame => exact reached_takeFrame h fun body => ⟨body, rfl⟩
  case dataFrame => exact reached_takeFrame h fun body => ⟨body, rfl⟩
  case closeFrame => exact reached_takeFrame h fun body => ⟨body, rfl⟩
  case checkErrorFrame =>
    unfold execCheckErrorFrame at h
    split at h
    next kind _ => exact reached_event h ⟨kind, rfl⟩
    · injection h with h; exact .inl h.symm
  case lossMark => exact reached_eventWhen h fun _ => rfl
  case renderStart =>
    unfold execRenderStart at h
    split at h
    next e he => exact reached_eventWhen h fun hf => ⟨e, he, hf, rfl⟩
    · injection h with h; exact .inl h.symm
  case lineDecodeEnd =>
    unfold execLineDecodeEnd at h
    split at h
    next d hd => exact reached_eventWhen h fun ho => ⟨d, hd, ho, rfl⟩
    · injection h with h; exact .inl h.symm
  case screenRenderEnd =>
    unfold execScreenRenderEnd at h
    split at h
    next d hd => exact reached_eventWhen h fun ho => ⟨d, hd, ho, rfl⟩
    · injection h with h; exact .inl h.symm
  case burstGrant =>
    unfold execBurstGrant at h
    split at h
    next b hb => exact reached_eventWhen h fun hn => ⟨b, hb, Option.isNone_iff_eq_none.mp hn, rfl⟩
    · injection h with h; exact .inl h.symm
  case burstDone =>
    unfold execBurstDone at h
    split at h
    next b hb =>
      split at h
      next hi => exact reached_event h ⟨b, hb, hi, rfl⟩
      · split at h
        · injection h with h; exact .inl h.symm
        · cases h
    · injection h with h; exact .inl h.symm
  case fetchLineBegin => exact reached_eventWhen h fun hd => ⟨hd, rfl⟩
  case index => exact reached_event h rfl
  case imageEdge => exact reached_event h rfl
  case drumReadyFall =>
    rcases event_next h with e | e
    · exact .inr ⟨_, .inl rfl, .inl e⟩
    · exact .inr ⟨_, .inr rfl, .inr e⟩
  case drumReadyRise =>
    rcases event_next h with e | e
    · exact .inr ⟨_, .inl rfl, .inl e⟩
    · exact .inr ⟨_, .inr rfl, .inr e⟩
  case indexWatchdogExpiry => exact reached_eventWhen h fun ha => ⟨ha, rfl⟩
  case refStepEnd => exact reached_eventWhen h fun hs => ⟨of_decide_eq_true hs, rfl⟩
  case beamStepPulseEnd =>
    unfold execBeamStepPulseEnd at h
    split at h
    next k n1 hk => exact reached_event h ⟨k, n1, hk, rfl⟩
    · injection h with h; exact .inl h.symm
  case beamStepGateTimeout =>
    unfold execBeamStepGateTimeout at h
    split at h
    next k n1 hk => exact reached_event h ⟨k, n1, hk, rfl⟩
    · injection h with h; exact .inl h.symm
  case syncByteReceived => exact reached_eventWhen h fun _ => rfl

/-- An invariant that every operation keeps is kept by every step. -/
theorem kept_by_step {P : State → Prop} (pending : ∀ s r, P s → P (s.withPending r)) (stall : ∀ s, P s → P s.testStall)
    (effect : ∀ c s u, Effect c s u → P s → P u) {s t : State} (hs : P s) (h : step s = .next t) : P t := by
  unfold step at h
  split at h
  · injection h with h; exact h ▸ hs
  next c r hp =>
    rcases exec_next h with rfl | ⟨u, hu, rfl | rfl⟩
    · exact pending _ _ hs
    · exact effect c _ _ hu (pending _ _ hs)
    · exact stall _ (effect c _ _ hu (pending _ _ hs))

end Sys2Proof.Machine
end

