-- ==== Sys2Proof/Laws/Requests.lean ====
section
/-! SUPPORT. What the statements about requests lean on: the request at the head is carried out, its answer is `replied`, and
`Heads` passes over an operation that leaves the pin and the link's request side as they are. -/

namespace Sys2Proof.Machine

theorem State.Heads.carried {s : State} {m : Message} {rest : List Message} (h : s.Heads m rest)
    (f : Message → State → State) : s.carryOut m.kind f = .next (f m s).testStall :=
  carryOut_taken h.1 h.2.1 h.2.2.1 h.2.2.2 f

/-- The same, with the kind as a numeral. -/
theorem State.Heads.runs {s : State} {m : Message} {rest : List Message} {kind : Byte} (h : s.Heads m rest)
    (hk : m.kind = kind) (f : Message → State → State) : s.carryOut kind f = .next (f m s).testStall := hk ▸ h.carried f

theorem State.Heads.answer {s : State} {m : Message} {rest : List Message} (h : s.Heads m rest) (a : Status)
    (r : List Byte) : s.answer a r = s.replied m.tag rest a r := by
  obtain ⟨_, hj, hq, _⟩ := h
  simp [State.answer, Link.answer, hq, State.replied, hj]

theorem State.Heads.over {s u : State} {m : Message} {rest : List Message} (h : s.Heads m rest)
    (h1 : u.pins.resetAsserted = s.pins.resetAsserted) (h2 : u.link.job = s.link.job)
    (h3 : u.link.requests = s.link.requests) (h4 : u.link.replies = s.link.replies) : u.Heads m rest := by
  obtain ⟨a, b, c, d⟩ := h
  exact ⟨by rw [h1, a], by rw [h2, b], by rw [h3, c], by rw [h4]; exact d⟩

/-- The answer made after an operation that passes `Heads` over. -/
theorem State.Heads.answerOver {s u : State} {m : Message} {rest : List Message} (h : s.Heads m rest)
    (h1 : u.pins.resetAsserted = s.pins.resetAsserted) (h2 : u.link.job = s.link.job)
    (h3 : u.link.requests = s.link.requests) (h4 : u.link.replies = s.link.replies) (a : Status) (r : List Byte) :
    u.answer a r = u.replied m.tag rest a r := (h.over h1 h2 h3 h4).answer a r

/-! ### Records by their id -/

theorem plate?_none (s : State) (id : Nat) : s.plate? id = none ↔ ∀ p ∈ s.table.plates, p.id ≠ id := by
  simp [State.plate?, List.find?_eq_none]

theorem plate?_some {s : State} {id : Nat} {p : Plate} (h : s.plate? id = some p) : p.id = id ∧ p ∈ s.table.plates := by
  unfold State.plate? at h
  exact ⟨by simpa using List.find?_some h, List.mem_of_find?_eq_some h⟩

theorem plate?_of_table {s u : State} (h : u.table = s.table) (id : Nat) : u.plate? id = s.plate? id := by
  simp [State.plate?, h]

/-- A change that keeps ids finds the changed record. -/
theorem find_map_keeping {f : Plate → Plate} (hf : ∀ p, (f p).id = p.id) (l : List Plate) (id : Nat) :
    (l.map f).find? (fun p => decide (p.id = id)) = (l.find? fun p => decide (p.id = id)).map f := by
  induction l with
  | nil => rfl
  | cons a r ih =>
    simp only [List.map_cons, List.find?_cons, hf]
    split <;> simp [ih]

theorem plate?_modPlate {s : State} {id : Nat} {f : Plate → Plate} (hf : ∀ p, (f p).id = p.id) (id' : Nat) :
    (s.modPlate id f).plate? id' = (s.plate? id').map fun p => if id' = id then f p else p := by
  unfold State.plate? State.modPlate
  simp only [withTable_table]
  rw [find_map_keeping (fun p => by split <;> simp [hf])]
  refine Option.map_congr fun p hp => ?_
  have : p.id = id' := by simpa using List.find?_some hp
  simp [this]

end Sys2Proof.Machine
end

