-- ==== Sys2Proof/Laws/Queues.lean ====
section
/-! SUPPORT. What the shared operations do to the segment queue, the plate table and the engine: ring release, abandonment,
the end of a plate, the taking of the head plate. -/

namespace Sys2Proof.Machine

/-! ### Ring release and abandonment -/

theorem releaseFrom_suffix (l : List Entry) (s : State) (h : s.segs.queue = l) : (releaseFrom l s).segs.queue <:+ l := by
  induction l generalizing s with
  | nil => simp [releaseFrom, h]
  | cons a r ih =>
    unfold releaseFrom
    split
    · exact (ih _ (by simp)).trans (List.suffix_cons a r)
    · rw [h]

/-- Ring release only removes entries from the head of the queue. -/
theorem releaseRing_suffix (s : State) : s.releaseRing.segs.queue <:+ s.segs.queue := releaseFrom_suffix _ _ rfl

theorem releaseRing_sub (s : State) : ∀ e ∈ s.releaseRing.segs.queue, e ∈ s.segs.queue :=
  fun _ h => (releaseRing_suffix s).subset h

/-- After an abandonment each entry stands as before, or is DEAD. -/
theorem abandon_entries (s : State) (r : Abandon) (i : Intake) : ∀ e ∈ (s.abandon r i).segs.queue,
    ∃ e' ∈ s.segs.queue, e.header = e'.header ∧ e.linked = e'.linked ∧ (e.state = e'.state ∨ e.state = .dead) := by
  unfold State.abandon
  split
  · intro e he
    have := releaseRing_sub _ e he
    split at this <;> simp [moveEntries] at this
    all_goals
      obtain ⟨a, ha, rfl⟩ := this
      exact ⟨a, ha, by split <;> simp, by split <;> simp, by split <;> simp⟩
  all_goals exact fun e he => ⟨e, he, rfl, rfl, .inl rfl⟩

theorem interrupt_entries (s : State) (w : Header → Bool) : ∀ e ∈ (s.interrupt w).segs.queue,
    ∃ e' ∈ s.segs.queue, e.header = e'.header ∧ e.linked = e'.linked ∧ (e.state = e'.state ∨ e.state = .dead) := by
  unfold State.interrupt
  split
  · exact abandon_entries _ _ _
  · exact fun e he => ⟨e, he, rfl, rfl, .inl rfl⟩

@[simp] theorem testHold_intake (s : State) : s.testHold.feed.intake = s.feed.intake := rfl
@[simp] theorem testHold_buffer (s : State) : s.testHold.feed.buffer = s.feed.buffer := rfl
@[simp] theorem testHold_receiver (s : State) : s.testHold.feed.receiver = s.feed.receiver := rfl
@[simp] theorem testHold_counters (s : State) : s.testHold.feed.counters = s.feed.counters := rfl
@[simp] theorem testHold_lastLost (s : State) : s.testHold.feed.lastLost = s.feed.lastLost := rfl
@[simp] theorem finishFrame_buffer (s : State) : s.finishFrame.feed.buffer = s.feed.buffer.drop 1 := rfl
@[simp] theorem finishFrame_intake (s : State) : s.finishFrame.feed.intake = s.feed.intake := rfl
@[simp] theorem finishFrame_counters (s : State) : s.finishFrame.feed.counters = s.feed.counters := rfl
@[simp] theorem finishFrame_receiver (s : State) : s.finishFrame.feed.receiver = s.feed.receiver := rfl
@[simp] theorem finishFrame_lastLost (s : State) : s.finishFrame.feed.lastLost = s.feed.lastLost := rfl

/-- Ring release leaves the feed but for FEED HOLD and the arming of INTAKE STALL. -/
@[simp] theorem releaseFrom_feed (l : List Entry) (s : State) :
    (releaseFrom l s).feed.intake = s.feed.intake ∧ (releaseFrom l s).feed.buffer = s.feed.buffer
      ∧ (releaseFrom l s).feed.counters = s.feed.counters ∧ (releaseFrom l s).feed.receiver = s.feed.receiver
      ∧ (releaseFrom l s).feed.lastLost = s.feed.lastLost := by
  induction l generalizing s with
  | nil => simp [releaseFrom]
  | cons a r ih =>
    unfold releaseFrom
    split
    · simpa using ih (s.withSegs { s.segs with queue := r }).testHold
    · simp

@[simp] theorem releaseRing_feed (s : State) :
    s.releaseRing.feed.intake = s.feed.intake ∧ s.releaseRing.feed.buffer = s.feed.buffer
      ∧ s.releaseRing.feed.counters = s.feed.counters ∧ s.releaseRing.feed.receiver = s.feed.receiver
      ∧ s.releaseRing.feed.lastLost = s.feed.lastLost := releaseFrom_feed _ _

/-- An abandonment of an open segment that writes no frame leaves the frame buffer; the intake is the one given. -/
theorem abandon_feed (s : State) (r : Abandon) (i : Intake) :
    (s.abandon r i).feed.counters = s.feed.counters ∧ (s.abandon r i).feed.receiver = s.feed.receiver
      ∧ (s.abandon r i).feed.lastLost = s.feed.lastLost
      ∧ (s.feed.intake.writing = false → (s.abandon r i).feed.buffer = s.feed.buffer)
      ∧ (∀ seg, s.feed.intake = .assembling seg → (s.abandon r i).feed.intake = i)
      ∧ ((∀ seg, s.feed.intake ≠ .assembling seg) → s.abandon r i = s) := by
  unfold State.abandon
  split
  next seg h =>
    refine ⟨?_, ?_, ?_, ?_, ?_, fun hn => absurd h (hn seg)⟩
    · split <;> simp
    · split <;> simp
    · split <;> simp
    · intro hw
      simp only [h, Intake.writing] at hw
      simp [hw]
    · intro _ _
      split <;> simp
  all_goals
    next h => exact ⟨rfl, rfl, rfl, fun _ => rfl, fun seg hs => by simp [h] at hs, fun _ => rfl⟩

/-! ### The end of a plate -/

/-- None of the entries of a plate that ended is QUEUED. -/
theorem endPlate_entries (s : State) (p : Plate) (x : PlateState) (c : Bool) : ∀ e ∈ (s.endPlate p x c).segs.queue,
    e.linked = true → e.header.plate = p.id → e.state ≠ .queued := by
  intro e he hl hp
  obtain ⟨e', h2, ha, hb, hc⟩ := interrupt_entries _ _ e (releaseRing_sub _ e he)
  rcases hc with hc | hc
  · simp [State.discard, moveEntries] at h2
    obtain ⟨a, h3, h4⟩ := h2
    intro hq
    split at h4
    · rw [hc, ← h4] at hq; simp at hq
    next hn =>
      subst h4
      exact hn ⟨by rw [← hc, hq], by simp [ofPlate, ← hb, hl, ← ha, hp]⟩
  · rw [hc]; simp

theorem endPlate_table (s : State) (p : Plate) (x : PlateState) (c : Bool) : (s.endPlate p x c).table =
    ⟨s.table.plates.map (fun q => if q.id = p.id then
        { q with
          state := x, authorised := false, bands := q.bands.map Band.ended,
          late := satAdd q.late (if c then (s.queuedOf (ofPlate p.id)).length else 0) } else q),
      s.table.queue.filter fun q => !decide (q = p.id)⟩ := by
  unfold State.endPlate
  simp [State.leaveQueue, State.modPlate]

theorem endPlate_pool (s : State) (p : Plate) (x : PlateState) (c : Bool) :
    (s.endPlate p x c).pool.free = s.pool.free ++ p.freedBuffers := by
  unfold State.endPlate
  simp [State.returnBuffers]

/-! ### The taking of the head plate -/

@[simp] theorem settleLead_taken (s : State) : s.settleLead.engine.taken = s.engine.taken := by
  unfold State.settleLead
  split
  · split
    · unfold State.leaveLead
      simp [Engine.startFetch, Engine.testUrgency]
      split <;> simp
    · rfl
  · rfl

/-- What the taking of the head plate does to the table and to the plate taken. -/
theorem takeHead_effect (s : State) : s.takeHead.table.queue = s.table.queue
    ∧ (s.takeHead = s
      ∨ ∃ p, s.table.queue.head? = some p.id ∧ s.plate? p.id = some p ∧ s.engine.state = .idle ∧ p.state = .loading
        ∧ p.authorised = true
        ∧ s.takeHead.table.plates
          = s.table.plates.map (fun x => if x.id = p.id then { x with state := .active } else x)
        ∧ s.takeHead.engine.taken = some ⟨p.id, p.completed + 1⟩) := by
  unfold State.takeHead
  split
  next p hp =>
    rw [Option.bind_eq_some_iff] at hp
    obtain ⟨id, h1, h2⟩ := hp
    obtain ⟨h3, h4⟩ := plate?_some h2
    subst h3
    split
    next hc => exact ⟨by simp [State.modPlate], .inr ⟨p, h1, h2, hc.1, hc.2.1, hc.2.2, by simp [State.modPlate], by
      simp [Engine.take]⟩⟩
    · simp
  · simp

end Sys2Proof.Machine
end

