-- ==== Sys2Proof/Laws/Segments.lean ====
section
/-! SUPPORT. The segment queue's own law (`State.SegmentLaw`): what it rests on, and that each operation on the queue keeps it:
ring release, abandonment, discarding, completion, acceptance, the start and the end of a render, the release of a plate. -/

namespace Sys2Proof.Machine

/-! ### Lists of entries -/

/-- A map that only lowers the live entries leaves a sublist of their identities. -/
theorem live_map_sublist (q : List Entry) (g : Entry → Entry)
    (h : ∀ e, (g e).header = e.header ∧ ((g e).live = true → e.live = true)) :
    List.Sublist (((q.map g).filter Entry.live).map fun e => e.header.identity)
      ((q.filter Entry.live).map fun e => e.header.identity) := by
  induction q with
  | nil => simp
  | cons a r ih =>
    obtain ⟨h1, h2⟩ := h a
    by_cases ha : (g a).live = true
    · simpa [List.filter_cons, ha, h2 ha, h1] using ih
    · by_cases hb : a.live = true
      · simp [List.filter_cons, ha, hb]; exact (by simpa using ih : List.Sublist _ _).cons _
      · simpa [List.filter_cons, ha, hb] using ih

/-- A map that stands still on what a filter leaves. -/
theorem filter_map_eq (q : List Entry) (g : Entry → Entry) (f f' : Entry → Bool) (h : ∀ e ∈ q, f (g e) = f' e)
    (h' : ∀ e ∈ q, f' e = true → g e = e) : (q.map g).filter f = q.filter f' := by
  induction q with
  | nil => rfl
  | cons a r ih =>
    have hr := ih (fun e he => h e (by simp [he])) fun e he => h' e (by simp [he])
    rw [List.map_cons, List.filter_cons, List.filter_cons, hr, h a (by simp)]
    split
    next ha => rw [h' a (by simp) ha]
    · rfl

/-- What a map takes from a count. -/
theorem countP_map_add (q : List Entry) (g : Entry → Entry) (P R : Entry → Bool)
    (h : ∀ e ∈ q, (P (g e)).toNat + (R e).toNat = (P e).toNat) : (q.map g).countP P + q.countP R = q.countP P := by
  induction q with
  | nil => simp
  | cons a r ih =>
    have ha := h a (by simp)
    have hr := ih fun e he => h e (by simp [he])
    simp only [List.map_cons, List.countP_cons]
    rw [List.countP_map] at hr ⊢
    cases hP : P (g a) <;> cases hR : R a <;> cases hQ : P a <;> simp [hP, hR, hQ] at ha ⊢ <;> omega

/-- Finished entries at the head count for nothing that only live entries count for. -/
theorem released_filter (q : List Entry) (f : Entry → Bool) (h : ∀ e, f e = true → e.live = true) :
    (released q).filter f = q.filter f := by
  induction q with
  | nil => simp [released]
  | cons a r ih =>
    unfold released at ih ⊢
    by_cases ha : a.state = .rendered ∨ a.state = .dead
    · have : f a = false := by
        by_contra hc
        have := h a (by simpa using hc)
        rcases ha with ha | ha <;> simp [Entry.live, ha] at this
      rw [List.dropWhile_cons, if_pos (by simpa using ha), ih, List.filter_cons_of_neg (by simp [this])]
    · simp [List.dropWhile_cons, ha]

theorem released_countP (q : List Entry) (f : Entry → Bool) (h : ∀ e, f e = true → e.live = true) :
    (released q).countP f = q.countP f := by
  rw [List.countP_eq_length_filter, List.countP_eq_length_filter, released_filter q f h]

/-- The queue after ring release. -/
theorem releaseFrom_segs (l : List Entry) (s : State) (h : s.segs.queue = l) :
    (releaseFrom l s).segs = ⟨released l, s.segs.writePos⟩ := by
  induction l generalizing s with
  | nil => simp only [releaseFrom, released, List.dropWhile_nil]; rw [← h]
  | cons e r ih =>
    unfold releaseFrom
    split
    next hf =>
      rw [ih _ (by simp)]
      have : decide (e.state = .rendered ∨ e.state = .dead) = true := by simpa [Entry.finished] using hf
      simp [released, List.dropWhile, this]
    next hf =>
      have : decide (e.state = .rendered ∨ e.state = .dead) = false := by simpa [Entry.finished] using hf
      rw [released, List.dropWhile_cons, this]; simp [← h]

theorem releaseRing_segs (s : State) : s.releaseRing.segs = ⟨released s.segs.queue, s.segs.writePos⟩ :=
  releaseFrom_segs _ _ rfl

/-- The use count that returns leave. -/
theorem returnUses (l : List Entry) (x : List ScreenSet) (n : Nat) :
    (l.foldl (fun x e => returnUse e.header x) x)[n]? = (x[n]?).map fun a =>
      { a with useCount := a.useCount - l.countP fun e => decide (e.header.kind = .tone ∧ e.header.screen = n) } := by
  induction l generalizing x with
  | nil => simp
  | cons e r ih =>
    rw [List.foldl_cons, ih, List.countP_cons]
    unfold returnUse
    cases hk : e.header.kind
    · simp [hk]
    · by_cases hn : e.header.screen = n
      · subst hn; simp [hk, List.getElem?_modify]
        cases x[e.header.screen]? <;> simp; omega
      · simp [hk, hn, List.getElem?_modify]

theorem returnUse_get (h : Header) (x : List ScreenSet) (n : Nat) :
    (returnUse h x)[n]? = (x[n]?).map fun a =>
      { a with useCount := a.useCount - if h.kind = .tone ∧ h.screen = n then 1 else 0 } := by
  have := returnUses [⟨h, true, 0, .dead⟩] x n
  simpa [List.countP_cons] using this

theorem returnUse_length (h : Header) (x : List ScreenSet) : (returnUse h x).length = x.length := by
  unfold returnUse; split <;> simp

theorem returnUses_length (l : List Entry) (x : List ScreenSet) :
    (l.foldl (fun x e => returnUse e.header x) x).length = x.length := by
  induction l generalizing x with
  | nil => rfl
  | cons e r ih => rw [List.foldl_cons, ih, returnUse_length]

/-! ### The work a renderer was given stays its own -/

theorem produce_work (d : Decode) (l : List Bool) : (d.produce l).work = d.work := rfl
theorem fail_work (d : Decode) : d.fail.work = d.work := rfl

theorem eat_work (d : Decode) (b : Byte) : (d.eat b).work = d.work := by
  unfold Decode.eat Decode.openCommand Decode.repeatLine Decode.takeNumber Decode.takeRun Decode.takeSpan
  repeat' (first | rfl | split | dsimp only)

theorem codeStep_work {d d' : Decode} (h : d.codeStep = some d') : d'.work = d.work := by
  unfold Decode.codeStep at h
  dsimp only at h
  split at h
  · injection h with h; rw [← h]; split <;> rfl
  · split at h
    · injection h with h; rw [← h]; rfl
    · split at h
      · injection h with h; rw [← h, eat_work]
      · split at h
        · cases h
        · injection h with h; rw [← h]; rfl

theorem move_work {d d' : Decode} (h : d.move = some d') : d'.work = d.work := by
  unfold Decode.move at h
  split at h
  · split at h
    · cases h
    · injection h with h; rw [← h]; split <;> rfl
    · injection h with h; rw [← h]; split <;> rfl
    · exact codeStep_work h
  · cases h

theorem moves_work (n : Nat) (d : Decode) : (Decode.moves n d).work = d.work := by
  induction n generalizing d with
  | zero => rfl
  | succ n ih =>
    unfold Decode.moves
    split
    · rfl
    next h => rw [ih, move_work h]

@[simp] theorem decode_advance_work (d : Decode) : d.advance.work = d.work := moves_work _ d

@[simp] theorem decode_start_work (k : Work) : (Decode.start k).work = k := by simp [Decode.start]

@[simp] theorem decode_burstDone_work (d : Decode) (op : BurstOp) (b : List Byte) : (d.burstDone op b).work = d.work := by
  unfold Decode.burstDone; split <;> simp

theorem startLine_work (d : Screen) : d.startLine.work = d.work := by
  unfold Screen.startLine; split <;> [rfl; (split <;> rfl)]

theorem screen_move_work {d d' : Screen} (h : d.move = some d') : d'.work = d.work := by
  unfold Screen.move at h
  split at h
  · split at h
    · cases h
    · injection h with h; rw [← h]; split <;> [rfl; exact startLine_work d]
    · split at h
      · injection h with h; rw [← h]
      · cases h
    · split at h
      · injection h with h; rw [← h]; exact startLine_work _
      · cases h
  · cases h

@[simp] theorem screen_advance_work (d : Screen) : d.advance.work = d.work := by
  unfold Screen.advance
  split
  · rfl
  next h1 =>
    split
    · exact screen_move_work h1
    next h2 =>
      split
      · rw [screen_move_work h2, screen_move_work h1]
      next h3 => rw [screen_move_work h3, screen_move_work h2, screen_move_work h1]

@[simp] theorem screen_start_work (k : Work) : (Screen.start k).work = k := by
  unfold Screen.start; dsimp only; split <;> simp [startLine_work]

@[simp] theorem screen_burstDone_work (d : Screen) (set : Option ScreenParams) (op : BurstOp) (b : List Byte) :
    (d.burstDone set op b).work = d.work := by
  unfold Screen.burstDone; split <;> simp

/-! ### The segment law -/

/-- The header of the open segment. -/
def Intake.opened : Intake → List Header
  | .assembling seg => [seg.header]
  | .unselected | .selected | .skipping => []

/-- The segment law rests on the queue, the open header, the works' entries and the screen sets only. -/
theorem State.SegmentLaw.congr {s u : State} (h : s.SegmentLaw) (hq : u.segs.queue = s.segs.queue)
    (hi : u.feed.intake.opened = s.feed.intake.opened)
    (hd : (u.decoder.map fun d => d.work.entry) = s.decoder.map fun d => d.work.entry)
    (hs : (u.screener.map fun d => d.work.entry) = s.screener.map fun d => d.work.entry)
    (hx : u.screens = s.screens) : u.SegmentLaw := by
  obtain ⟨h1, h2, h3, h4, h5, h6⟩ := h
  refine ⟨?_, ?_, ?_, ?_, ?_, ?_⟩
  · rw [hq, h1]; exact hi.symm
  · rw [hq, h2, hd]
  · rw [hq, h3, hs]
  · rw [hq]; exact h4
  · rw [hx]; exact h5
  · rw [hq, hx]; exact h6

theorem State.SegmentLaw.releaseRing {s : State} (h : s.SegmentLaw) : s.releaseRing.SegmentLaw := by
  obtain ⟨h1, h2, h3, h4, h5, h6⟩ := h
  have hq : s.releaseRing.segs.queue = released s.segs.queue := by rw [releaseRing_segs]
  refine ⟨?_, ?_, ?_, ?_, ?_, ?_⟩
  · rw [hq, released_filter _ _ (by intro e; simp [Entry.live]; tauto), h1]; simp
  · rw [hq, released_filter _ _ (by intro e; simp [Entry.live]; tauto), h2]; simp
  · rw [hq, released_filter _ _ (by intro e; simp [Entry.live]; tauto), h3]; simp
  · rw [hq, released_filter _ _ (by simp)]; exact h4
  · simpa using h5
  · intro n x hx
    rw [hq, released_countP _ _ (by intro e; simp; tauto)]
    exact h6 n x (by simpa using hx)

/-- Entries `gone` from the live ones, with the uses they had. -/
theorem State.SegmentLaw.lower {s u : State} (h : s.SegmentLaw) (gone : Entry → Bool) (st : EntryState)
    (hst : st = .dead ∨ st = .rendered) (hgone : ∀ e, gone e = true → e.live = true)
    (hq : u.segs.queue = s.segs.queue.map fun e => if gone e = true then { e with state := st } else e)
    (hi : u.feed.intake.opened = (s.segs.queue.filter fun e => decide (e.state = .assembling) && !gone e).map Entry.header)
    (hd : (u.decoder.map fun d => d.work.entry).toList
      = s.segs.queue.filter fun e => decide (e.state = .rendering ∧ e.header.kind = .line) && !gone e)
    (hs : (u.screener.map fun d => d.work.entry).toList
      = s.segs.queue.filter fun e => decide (e.state = .rendering ∧ e.header.kind = .tone) && !gone e)
    (hl : u.screens.length = s.screens.length)
    (hx : ∀ n : Nat, u.screens[n]? = (s.screens[n]?).map fun a => { a with
      useCount := a.useCount
        - s.segs.queue.countP fun e => decide (gone e = true ∧ e.header.kind = .tone ∧ e.header.screen = n) }) :
    u.SegmentLaw := by
  obtain ⟨h1, h2, h3, h4, h5, h6⟩ := h
  set g : Entry → Entry := fun e => if gone e = true then { e with state := st } else e with hg
  have hgh : ∀ e, (g e).header = e.header := fun e => by simp only [hg]; split <;> rfl
  have hne : st ≠ .assembling ∧ st ≠ .rendering ∧ ∀ e : Entry, ({ e with state := st } : Entry).live = false := by
    rcases hst with rfl | rfl <;> simp [Entry.live]
  have keep : ∀ (f : Entry → Bool), (∀ e : Entry, f { e with state := st } = false) →
      (s.segs.queue.map g).filter f = s.segs.queue.filter fun e => f e && !gone e := by
    intro f hf
    refine filter_map_eq _ _ _ _ (fun e _ => ?_) fun e _ he => ?_
    · by_cases hc : gone e = true <;> simp [hg, hc, hf]
    · by_cases hc : gone e = true
      · simp [hc] at he
      · simp [hg, hc]
  refine ⟨?_, ?_, ?_, ?_, ?_, ?_⟩
  · rw [hq, keep _ (fun e => by simp [hne.1]), ← hi]; rfl
  · rw [hq, keep _ (fun e => by simp [hne.2.1]), ← hd]
  · rw [hq, keep _ (fun e => by simp [hne.2.1]), ← hs]
  · rw [hq]
    refine (live_map_sublist _ g fun e => ⟨hgh e, ?_⟩).nodup h4
    simp only [hg]; split <;> simp [hne.2.2]
  · rw [hl, h5]
  · intro n x hux
    rw [hx, Option.map_eq_some_iff] at hux
    obtain ⟨a, ha, rfl⟩ := hux
    obtain ⟨c1, c2⟩ := h6 n a ha
    have := countP_map_add s.segs.queue g (fun e => decide (e.live = true ∧ e.header.kind = .tone ∧ e.header.screen = n))
      (fun e => decide (gone e = true ∧ e.header.kind = .tone ∧ e.header.screen = n)) (by
        intro e _
        simp only [hgh]
        by_cases h1 : gone e = true
        · simp only [hg, h1, if_true, hgone e h1, true_and, hne.2.2]; simp
        · simp [hg, h1])
    refine ⟨?_, fun hp => c2 ?_⟩
    · dsimp only; rw [hq]; omega
    · dsimp only at hp; omega

/-- Entries that change among the live states keep the segment law, where the open segment and the renderers follow. -/
theorem State.SegmentLaw.shift {s u : State} (h : s.SegmentLaw) (g : Entry → Entry)
    (hg : ∀ e, (g e).header = e.header ∧ (g e).live = e.live) (hq : u.segs.queue = s.segs.queue.map g)
    (hi : ((s.segs.queue.map g).filter fun e => decide (e.state = .assembling)).map Entry.header = u.feed.intake.opened)
    (hd : ((s.segs.queue.map g).filter fun e => decide (e.state = .rendering ∧ e.header.kind = .line))
      = (u.decoder.map fun d => d.work.entry).toList)
    (hs : ((s.segs.queue.map g).filter fun e => decide (e.state = .rendering ∧ e.header.kind = .tone))
      = (u.screener.map fun d => d.work.entry).toList)
    (hx : u.screens = s.screens) : u.SegmentLaw := by
  obtain ⟨h1, h2, h3, h4, h5, h6⟩ := h
  refine ⟨by rw [hq, hi]; rfl, by rw [hq, hd], by rw [hq, hs], ?_, by rw [hx, h5], fun n x hn => ?_⟩
  · rw [hq]; exact (live_map_sublist _ g fun e => ⟨(hg e).1, fun hl => (hg e).2 ▸ hl⟩).nodup h4
  · rw [hq, List.countP_map]
    simp only [Function.comp_def, hg]
    exact h6 n x (hx ▸ hn)

/-- An abandonment keeps the segment law, where the intake is not left assembling. -/
theorem State.SegmentLaw.abandon {s : State} (h : s.SegmentLaw) (r : Abandon) (i : Intake) (hi : i.opened = []) :
    (s.abandon r i).SegmentLaw := by
  unfold State.abandon
  split
  next seg hs =>
    have h1 := h.1
    rw [hs] at h1
    have base : ∀ u : State, u.segs.queue = moveEntries (fun _ => true) .assembling .dead s.segs.queue →
        u.feed.intake = i → u.decoder = s.decoder → u.screener = s.screener → u.screens = returnUse seg.header s.screens →
        u.SegmentLaw := by
      intro u a1 a2 a3 a4 a5
      refine h.lower (fun e => decide (e.state = .assembling)) .dead (.inl rfl)
        (fun e he => by simp [Entry.live] at he ⊢; simp [he])
        (by rw [a1]; simp [moveEntries]) ?_ ?_ ?_ (by rw [a5, returnUse_length]) ?_
      · rw [a2, hi]
        have : (s.segs.queue.filter fun e => decide (e.state = .assembling) && !decide (e.state = .assembling)) = [] := by
          rw [List.filter_eq_nil_iff]; intro e _; simp
        rw [this]; rfl
      · rw [a3, ← h.2.1]; apply List.filter_congr; intro e _; by_cases he : e.state = .rendering <;> simp [he]
      · rw [a4, ← h.2.2.1]; apply List.filter_congr; intro e _; by_cases he : e.state = .rendering <;> simp [he]
      · intro n
        rw [a5, returnUse_get]
        have : (s.segs.queue.countP fun e => decide (decide (e.state = .assembling) = true ∧ e.header.kind = .tone ∧ e.header.screen = n))
            = if seg.header.kind = .tone ∧ seg.header.screen = n then 1 else 0 := by
          have e : (s.segs.queue.countP fun e => decide (decide (e.state = .assembling) = true ∧ e.header.kind = .tone ∧ e.header.screen = n))
              = ((s.segs.queue.filter fun e => decide (e.state = .assembling)).map Entry.header).countP fun h => decide (h.kind = .tone ∧ h.screen = n) := by
            rw [List.countP_map, List.countP_filter]
            congr 1; funext e; simp [Bool.and_comm]
          rw [e, h1]; simp [List.countP_cons]
        rw [this]
    apply State.SegmentLaw.releaseRing
    split
    · exact base _ (by simp) (by simp) (by simp) (by simp) (by simp)
    · exact base _ (by simp) (by simp) (by simp) (by simp) (by simp)
  all_goals exact h

theorem State.SegmentLaw.interrupt {s : State} (h : s.SegmentLaw) (w : Header → Bool) : (s.interrupt w).SegmentLaw := by
  unfold State.interrupt; split
  · exact h.abandon _ _ rfl
  · exact h

theorem State.SegmentLaw.discard {s : State} (h : s.SegmentLaw) (w : Entry → Bool) : (s.discard w).SegmentLaw := by
  have h1 := h.1
  refine h.lower (fun e => decide (e.state = .queued) && w e) .dead (.inl rfl)
    (fun e he => by simp [Entry.live] at he ⊢; simp [he])
    (by simp [State.discard, moveEntries]) ?_ ?_ ?_ (by simp [State.discard, returnUses_length]) ?_
  · have : (s.segs.queue.filter fun e => decide (e.state = .assembling) && !(decide (e.state = .queued) && w e))
        = s.segs.queue.filter fun e => decide (e.state = .assembling) := by
      apply List.filter_congr; intro e _
      by_cases he : e.state = .assembling <;> simp [he]
    rw [this, h1]; rfl
  · rw [show (s.discard w).decoder = s.decoder by simp, ← h.2.1]
    apply List.filter_congr; intro e _; by_cases he : e.state = .rendering <;> simp [he]
  · rw [show (s.discard w).screener = s.screener by simp, ← h.2.2.1]
    apply List.filter_congr; intro e _; by_cases he : e.state = .rendering <;> simp [he]
  · intro n
    simp only [State.discard, withSegs_screens, withScreens_screens, returnUses]
    have : (s.queuedOf w).countP (fun e => decide (e.header.kind = .tone ∧ e.header.screen = n))
        = s.segs.queue.countP fun e => decide ((decide (e.state = .queued) && w e) = true ∧ e.header.kind = .tone ∧ e.header.screen = n) := by
      unfold State.queuedOf; rw [List.countP_filter]
      congr 1; funext e; simp [Bool.and_comm]
    rw [this]

theorem State.SegmentLaw.completeSegment {s : State} (h : s.SegmentLaw) (h0 : s.completeSegment.feed.intake.opened = []) :
    s.completeSegment.SegmentLaw := by
  refine h.shift (fun e => if e.state = .assembling then { e with state := .queued } else e)
    (fun e => by split <;> simp_all [Entry.live]) (by simp [State.completeSegment, moveEntries]) ?_ ?_ ?_
    (by simp [State.completeSegment])
  · rw [h0, filter_map_eq _ _ _ (fun _ => false)]
    · simp
    · intro e _; by_cases he : e.state = .assembling <;> simp [he]
    · simp
  · rw [show s.completeSegment.decoder = s.decoder by simp, ← h.2.1]
    refine filter_map_eq _ _ _ _ (fun e _ => ?_) fun e _ he => ?_
    · by_cases he : e.state = .assembling <;> simp [he]
    · simp at he; simp [he]
  · rw [show s.completeSegment.screener = s.screener by simp, ← h.2.2.1]
    refine filter_map_eq _ _ _ _ (fun e _ => ?_) fun e _ he => ?_
    · by_cases he : e.state = .assembling <;> simp [he]
    · simp at he; simp [he]

/-- What an accepted OPEN adds: an identity no live entry has, and a use of a READY set. -/
theorem State.SegmentLaw.acceptOpen {s : State} (h : s.SegmentLaw) (hd : Header) (hi : s.feed.intake.opened = [])
    (hn : ∀ e ∈ s.segs.queue, e.live = true → e.header.identity ≠ hd.identity)
    (hr : hd.kind = .tone → (s.readySet hd.screen).isSome = true) : (s.acceptOpen hd).SegmentLaw := by
  obtain ⟨h1, h2, h3, h4, h5, h6⟩ := h
  have hq : (s.acceptOpen hd).segs.queue = s.segs.queue ++ [⟨hd, true, s.segs.writePos, .assembling⟩] := by
    simp [State.acceptOpen]
  have h1' : (s.segs.queue.filter fun e => decide (e.state = .assembling)) = [] := by
    have : ((s.segs.queue.filter fun e => decide (e.state = .assembling)).map Entry.header) = [] := by
      rw [h1]; exact hi
    simpa using this
  have hx : (s.acceptOpen hd).screens = takeUse hd s.screens := by simp [State.acceptOpen]
  refine ⟨?_, ?_, ?_, ?_, ?_, ?_⟩
  · rw [hq, List.filter_append, h1']; simp [State.acceptOpen, State.setIntake]
  · rw [hq, List.filter_append, h2]; simp
  · rw [hq, List.filter_append, h3]; simp
  · rw [hq, List.filter_append, List.map_append, List.nodup_append]
    refine ⟨h4, by simp [Entry.live], ?_⟩
    rintro a ha b hb
    simp [Entry.live] at hb
    simp only [List.mem_map, List.mem_filter] at ha
    obtain ⟨e, ⟨he, hl⟩, rfl⟩ := ha
    rw [hb]; exact hn e he hl
  · rw [hx]; unfold takeUse; split <;> simp [h5]
  · intro n x hnx
    rw [hx] at hnx
    rw [hq, List.countP_append]
    unfold takeUse at hnx
    split at hnx
    next hk =>
      have := h6 n x hnx
      simpa [List.countP_cons, hk] using this
    next hk =>
      rw [List.getElem?_modify] at hnx
      by_cases hs : hd.screen = n
      · simp only [hs, if_true, Option.map_eq_map, Option.map_eq_some_iff] at hnx
        obtain ⟨y, hy, rfl⟩ := hnx
        obtain ⟨c1, c2⟩ := h6 n y hy
        refine ⟨by simp [List.countP_cons, hk, hs, Entry.live, c1], fun _ => ?_⟩
        have := hr hk
        unfold State.readySet at this
        rw [hs, hy] at this
        simp only [Option.map_some] at this
        split at this
        next p hp => exact ⟨p, by simpa using hp⟩
        all_goals simp at this
      · simp [hs] at hnx
        have := h6 n x hnx
        simpa [List.countP_cons, hk, hs] using this

/-- The link that names a plate record ends (R42). -/
theorem State.SegmentLaw.removePlate {s : State} (h : s.SegmentLaw) (id : Nat) : (s.removePlate id).SegmentLaw := by
  have hh : ∀ e : Entry, (e.unlink id).header = e.header ∧ (e.unlink id).state = e.state := fun e => by
    unfold Entry.unlink; split <;> exact ⟨rfl, rfl⟩
  have hl : ∀ e : Entry, (e.unlink id).live = e.live := fun e => by simp [Entry.live, hh]
  refine h.shift (Entry.unlink id) (fun e => ⟨(hh e).1, hl e⟩) (by simp [State.removePlate]) ?_ ?_ ?_
    (by simp [State.removePlate])
  · have := h.1
    rw [List.filter_map, List.map_map]
    simp only [Function.comp_def, hh]
    rw [this]; simp [State.removePlate]; rfl
  · rw [List.filter_map]
    simp only [Function.comp_def, hh]
    rw [h.2.1]; simp [State.removePlate]; cases s.decoder <;> simp [Work.unlink]
  · rw [List.filter_map]
    simp only [Function.comp_def, hh]
    rw [h.2.2.1]; simp [State.removePlate]; cases s.screener <;> simp [Work.unlink]

theorem changeFirst_map {α : Type} (w : α → Bool) (f : α → α) (l : List α) (a : α) (h : l.find? w = some a) :
    ∃ before after, l = before ++ a :: after ∧ (∀ x ∈ before, w x = false) ∧ changeFirst w f l = before ++ f a :: after := by
  induction l with
  | nil => simp at h
  | cons b r ih =>
    rw [List.find?_cons] at h
    split at h
    next hb => injection h with h; subst h; exact ⟨[], r, rfl, by simp, by simp [changeFirst, hb]⟩
    next hb =>
      obtain ⟨x, y, h1, h2, h3⟩ := ih h
      exact ⟨b :: x, y, by simp [h1], by simpa [hb] using h2, by simp [changeFirst, hb, h3]⟩

theorem filter_fill (f : Entry → Bool) (before after : List Entry) (e e' : Entry) (he : f e = false) (he' : f e' = true)
    (h : (before ++ e :: after).filter f = []) : (before ++ e' :: after).filter f = [e'] := by
  rw [List.filter_append, List.filter_cons_of_neg (by simp [he]), List.append_eq_nil_iff] at h
  rw [List.filter_append, List.filter_cons_of_pos he', h.1, h.2]; rfl

theorem filter_keep (f : Entry → Bool) (before after : List Entry) (e e' : Entry) (he : f e = false) (he' : f e' = false) :
    (before ++ e' :: after).filter f = (before ++ e :: after).filter f := by
  rw [List.filter_append, List.filter_append, List.filter_cons_of_neg (by simp [he']),
    List.filter_cons_of_neg (by simp [he])]

/-- The entry a free renderer takes becomes the one RENDERING entry of its kind (R53). -/
theorem State.SegmentLaw.giveEntry {s : State} (h : s.SegmentLaw) (p : Plate) (e : Entry) (n : Nat) (free : List Nat)
    (kind : SegKind) (he : s.segs.queue.find? (s.offered kind) = some e) (hf : s.rendererFree kind = true) :
    (s.giveEntry p e n free).SegmentLaw := by
  have ho : s.offered kind e = true := List.find?_some he
  simp only [State.offered, Bool.and_eq_true, decide_eq_true_eq] at ho
  obtain ⟨hk, hel⟩ := ho
  have hst : e.state = .queued := by
    unfold State.eligible at hel; simp only [Bool.and_eq_true, decide_eq_true_eq] at hel; exact hel.1.1
  obtain ⟨before, after, hq, _, hc⟩ := changeFirst_map (s.offered kind) (fun x => { x with state := .rendering }) _ _ he
  obtain ⟨h1, h2, h3, h4, h5, h6⟩ := h
  have hq' : (s.giveEntry p e n free).segs.queue = before ++ { e with state := .rendering } :: after := by
    subst hk
    unfold State.giveEntry State.beginWork
    cases hkk : e.header.kind <;> simp [hkk, ← hc]
  have hsc : (s.giveEntry p e n free).screens = s.screens := by simp
  have hin : (s.giveEntry p e n free).feed = s.feed := by simp
  have hdec : (s.giveEntry p e n free).decoder.map (fun d => d.work.entry)
      = if kind = .line then some { e with state := .rendering } else s.decoder.map fun d => d.work.entry := by
    subst hk
    unfold State.giveEntry State.beginWork
    cases hkk : e.header.kind <;> simp [hkk]
  have hscr : (s.giveEntry p e n free).screener.map (fun d => d.work.entry)
      = if kind = .tone then some { e with state := .rendering } else s.screener.map fun d => d.work.entry := by
    subst hk
    unfold State.giveEntry State.beginWork
    cases hkk : e.header.kind <;> simp [hkk]
  have hlive : ∀ e : Entry, ({ e with state := .rendering } : Entry).live = true := by simp [Entry.live]
  have hle : e.live = true := by simp [Entry.live, hst]
  rw [hq] at h1 h2 h3 h4 h6
  refine ⟨?_, ?_, ?_, ?_, ?_, ?_⟩
  · rw [hq', hin, filter_keep _ before after e _ (by simp [hst]) (by simp)]; exact h1
  · rw [hq', hdec]
    cases kind
    · have hn : s.decoder = none := by simpa [State.rendererFree] using hf
      rw [hn] at h2
      exact filter_fill _ before after e _ (by simp [hst]) (by simp [hk]) h2
    · rw [filter_keep _ before after e _ (by simp [hst]) (by simp [hk])]; exact h2
  · rw [hq', hscr]
    cases kind
    · rw [filter_keep _ before after e _ (by simp [hst]) (by simp [hk])]; exact h3
    · have hn : s.screener = none := by simpa [State.rendererFree] using hf
      rw [hn] at h3
      exact filter_fill _ before after e _ (by simp [hst]) (by simp [hk]) h3
  · rw [hq']; simpa [List.filter_append, List.filter_cons, hlive, hle] using h4
  · rw [hsc]; exact h5
  · intro m x hx
    rw [hq']
    have := h6 m x (hsc ▸ hx)
    simpa [List.countP_append, List.countP_cons, hlive, hle] using this

/-! ### Changes beside the queue -/

/-- The segment law where nothing it rests on changes. -/
theorem State.SegmentLaw.same {s u : State} (h : s.SegmentLaw) (hq : u.segs.queue = s.segs.queue)
    (hi : u.feed.intake.opened = s.feed.intake.opened) (hd : u.decoder = s.decoder) (hs : u.screener = s.screener)
    (hx : u.screens = s.screens) : u.SegmentLaw := h.congr hq hi (by rw [hd]) (by rw [hs]) hx

/-- A change of the sets' states that leaves a set in use READY keeps the segment law (R83, R86, R87). -/
theorem State.SegmentLaw.sets {s u : State} (h : s.SegmentLaw) (f : ScreenSet → ScreenSet) (k : Nat)
    (hf : ∀ x, s.screens[k]? = some x → (f x).useCount = x.useCount
      ∧ (0 < x.useCount → (∃ p, x.state = .ready p) → ∃ p, (f x).state = .ready p))
    (hx : u.screens = s.screens.modify k f) (hq : u.segs.queue = s.segs.queue)
    (hi : u.feed.intake.opened = s.feed.intake.opened) (hd : u.decoder = s.decoder) (hs : u.screener = s.screener) :
    u.SegmentLaw := by
  obtain ⟨h1, h2, h3, h4, h5, h6⟩ := h
  refine ⟨by rw [hq, h1]; exact hi.symm, by rw [hq, h2, hd], by rw [hq, h3, hs], by rw [hq]; exact h4,
    by rw [hx, List.length_modify, h5], fun n x hn => ?_⟩
  rw [hx, List.getElem?_modify] at hn
  by_cases hk : k = n
  · subst hk
    simp only [if_true, Option.map_eq_map, Option.map_eq_some_iff] at hn
    obtain ⟨y, hy, rfl⟩ := hn
    obtain ⟨a, b⟩ := h6 k y hy
    obtain ⟨c, d⟩ := hf y hy
    exact ⟨by rw [hq, c, a], fun hp => d (by omega) (b (by omega))⟩
  · simp only [hk, if_false, Option.map_eq_map, Option.map_id_fun', id_eq] at hn
    rw [hq]; exact h6 n x hn

/-- The entry that a render's end takes is its renderer's own, and RENDERED afterwards (R54). -/
theorem State.SegmentLaw.endRenderCore {s : State} (h : s.SegmentLaw) (kind : SegKind) (k : Work)
    (hk : match kind with
      | .line => s.decoder.map (fun d => d.work) = some k
      | .tone => s.screener.map (fun d => d.work) = some k) : (s.endRenderCore kind k).SegmentLaw := by
  have hf : ∀ e : Entry, decide (e.state = .rendering ∧ e.header.kind = kind) = true → e.live = true := by
    intro e he; simp at he; simp [Entry.live, he]
  have hr : (s.segs.queue.filter fun e => decide (e.state = .rendering ∧ e.header.kind = kind)) = [k.entry] := by
    cases kind
    · have := h.2.1
      rw [this]; simp at hk; obtain ⟨d, hd, rfl⟩ := hk; simp [hd]
    · have := h.2.2.1
      rw [this]; simp at hk; obtain ⟨d, hd, rfl⟩ := hk; simp [hd]
  have hek : k.entry.header.kind = kind := by
    have : k.entry ∈ s.segs.queue.filter fun e => decide (e.state = .rendering ∧ e.header.kind = kind) := by rw [hr]; simp
    exact (of_decide_eq_true (List.mem_filter.mp this).2).2
  have base : ∀ u : State, u.segs.queue = s.segs.queue.map (fun e =>
        if e.state = .rendering ∧ e.header.kind = kind then { e with state := .rendered } else e) →
      u.feed.intake = s.feed.intake → u.decoder = (if kind = .line then none else s.decoder) →
      u.screener = (if kind = .tone then none else s.screener) → u.screens = returnUse k.entry.header s.screens →
      u.SegmentLaw := by
    intro u a1 a2 a3 a4 a5
    refine h.lower (fun e => decide (e.state = .rendering ∧ e.header.kind = kind)) .rendered (.inr rfl) hf
      (by rw [a1]; simp) ?_ ?_ ?_ (by rw [a5, returnUse_length]) ?_
    · rw [a2]
      have := h.1
      rw [show (s.segs.queue.filter fun e => decide (e.state = .assembling) && !decide (e.state = .rendering ∧ e.header.kind = kind))
        = s.segs.queue.filter fun e => decide (e.state = .assembling) from ?_, this]; rfl
      apply List.filter_congr; intro e _; by_cases he : e.state = .assembling <;> simp [he]
    · rw [a3]
      cases kind
      · simp
      · simp only [reduceCtorEq, if_false]
        rw [← h.2.1]; apply List.filter_congr; intro e _
        by_cases he : e.header.kind = .line <;> simp [he]
    · rw [a4]
      cases kind
      · simp only [reduceCtorEq, if_false]
        rw [← h.2.2.1]; apply List.filter_congr; intro e _
        by_cases he : e.header.kind = .tone <;> simp [he]
      · simp
    · intro n
      rw [a5, returnUse_get]
      have : (s.segs.queue.countP fun e =>
          decide (decide (e.state = .rendering ∧ e.header.kind = kind) = true ∧ e.header.kind = .tone ∧ e.header.screen = n))
          = if k.entry.header.kind = .tone ∧ k.entry.header.screen = n then 1 else 0 := by
        have e : (s.segs.queue.countP fun e =>
          decide (decide (e.state = .rendering ∧ e.header.kind = kind) = true ∧ e.header.kind = .tone ∧ e.header.screen = n))
            = (s.segs.queue.filter fun e => decide (e.state = .rendering ∧ e.header.kind = kind)).countP
              fun e => decide (e.header.kind = .tone ∧ e.header.screen = n) := by
          rw [List.countP_filter]; congr 1; funext e
          by_cases ha : e.state = .rendering ∧ e.header.kind = kind <;> simp [ha]
        rw [e, hr]; simp [List.countP_cons]
      rw [this]
  unfold State.endRenderCore
  apply State.SegmentLaw.releaseRing
  have hm : moveEntries (fun e => decide (e.header.kind = kind)) .rendering .rendered s.segs.queue = s.segs.queue.map (fun e =>
        if e.state = .rendering ∧ e.header.kind = kind then { e with state := .rendered } else e) := by
    simp [moveEntries]
  apply base
  · rw [← hm]; split <;> simp
  · split <;> cases kind <;> simp [State.freeRenderer]
  · split <;> cases kind <;> simp [State.freeRenderer]
  · split <;> cases kind <;> simp [State.freeRenderer]
  · split <;> cases kind <;> simp [State.freeRenderer]

end Sys2Proof.Machine
end

