-- ==== Sys2Proof/WellFormed.lean ====
section
/-! DEFINITION. Which commands can stand in the queue at all: the checks on a command's own operands. -/

namespace Sys2Proof

/-- A command is well formed when its operands can occur on the part's lines: a message's body has at most 4096 bytes
(R187), a length found too long is above 4096 (R171), and a feed frame's body is as long as a 16-bit length can say (R193).
Every other command takes any operands. -/
def Instr.wellFormed : Instr → Bool
  | .messageReceived _ _ body _ => decide (body.length ≤ 4096)
  | .messageLengthTooLong length => decide (4096 < length.toNat)
  | .frameArrivalEnd body _ => decide (body.length ≤ 65535)
  | .plateDefine | .plateRelease | .plateAbort | .bandQuery | .feedClear | .screenBegin | .screenTable | .screenEnd
  | .plateExpose | .exposeSetup | .monitorRead | .monitorMeasure | .monitorStop | .stampLoad | .plateReport | .status
  | .softReset | .unknownRequestKind | .messageGap | .transmitReply | .transmitNotice | .resetPinAsserted
  | .powerOnReset _ _ | .frameArrivalStart _ _ | .feedFrameGap | .selectFrame | .openFrame | .dataFrame | .closeFrame
  | .checkErrorFrame | .lossMark | .renderStart _ | .lineDecodeEnd | .screenRenderEnd | .burstGrant | .burstDone
  | .fetchLineBegin | .index _ _ | .imageEdge _ _ | .drumReadyFall | .drumReadyRise | .indexWatchdogExpiry
  | .refStepEnd _ | .beamStepPulseEnd _ | .beamStepGateTimeout _ | .syncByteReceived | .messageSent => true

end Sys2Proof
end

