-- ==== Sys2Proof/Tests/Slice0.lean ====
section
/-! SUPPORT. The model's own tests: the well-formedness checks, the manual's worked examples, and for every statement a
state and operands that meet its hypotheses, clause by clause (`test_hyps_<statement>`, and with a suffix for the clauses of a
statement with many). -/

namespace Sys2Proof.Tests

open Sys2Proof Sys2Proof.Machine

-- One test after another: a test checked by the kernel waits for all before it, and forty waiting at once take 10 GiB of
-- stacks.
set_option Elab.async false

/-! ### Small states -/

/-- The state after power-on reset. -/
def base : State := .reset

/-- The state an outcome leads to; the reset state where it leads to none. -/
def after : Host.Outcome State Fault Refusal → State
  | .next s => s
  | .fault _ | .refused _ => base

/-- The state with one request of a kind and body in the buffer, tag 0x21. -/
def asking (s : State) (kind : Byte) (body : List Byte) : State :=
  s.withLink { s.link with requests := [⟨kind, 0x21, body⟩] }

/-- The request so placed may be carried out. -/
theorem asking_heads (s : State) (kind : Byte) (body : List Byte) (hr : s.pins.resetAsserted = false)
    (hj : s.link.job = none) (hl : s.link.replies = []) : (asking s kind body).Heads ⟨kind, 0x21, body⟩ [] :=
  ⟨hr, hj, rfl, by show s.link.replies.length < 8; simp [hl]⟩

/-- The reply a command leaves at the head of the reply queue. -/
def reply (c : Instr) (s : State) : Option (Status × List Byte) :=
  (after (exec c s)).link.replies.head?.map fun r => (r.status, r.result)

/-- The state with one good frame in the frame buffer. -/
def feeding (s : State) (kind : Byte) (body : List Byte) : State :=
  s.withFeed { s.feed with buffer := [.frame kind (body.length + 5) (.good body)] }

theorem feeding_headFrame (s : State) (kind : Byte) (body : List Byte) (hr : s.pins.resetAsserted = false)
    (hw : s.feed.intake.writing = false) : (feeding s kind body).HeadFrame kind (body.length + 5) body [] :=
  ⟨hr, rfl, hw⟩

/-- The intake in a state. -/
def taking (i : Intake) : State := base.setIntake i

/-- A band of 2 segments in a state, holding a buffer or none. -/
def band (st : BandState) (buffer : Option Nat) : Band := ⟨2, 0, st, buffer, false, false, none, none⟩

/-- Plate 31, 1024 by 300, of 2 bands and 2 copies. -/
def plate (st : PlateState) (bands : List Band) : Plate :=
  ⟨31, st, 1024, 300, 2, 0, 1, false, false, [], bands, [], 0, 0, 0⟩

/-- The plate table with one plate, in the queue where it is LOADING or ACTIVE. -/
def tabled (p : Plate) : State := base.withTable ⟨[p], if p.live then [p.id] else []⟩

/-- The engine working on copy `copy` of the ACTIVE plate 31 in a state. -/
def working (st : EngineState) (copy : Nat) (bands : List Band) : State :=
  (tabled (plate .active bands)).withEngine
    { base.engine with state := st, taken := some ⟨31, copy⟩, watchdog := some 2000, running := true }

/-- A LINE header of plate 31, band 0: 16 by 4 pixels in 17 bytes. -/
def header (seq : Nat) : Header := ⟨31, 0, seq, .line, .replace, 8, 0, 16, 4, 17, none, 0, 0, 0⟩

/-- The entry of such a segment. -/
def entry (st : EntryState) (linked : Bool) : Entry := ⟨header 0, linked, 0, st⟩

/-- An open segment of it with a number of bytes received. -/
def openSeg (received : Nat) : OpenSegment := ⟨header 0, 0, received, crc32Init, none⟩

/-- The arbiter BUSY with a burst. -/
def busy (addr : Nat) (op : BurstOp) : State := base.withArbiter ⟨some ⟨.fetch, addr, op, false⟩, none⟩

/-- A decode of the LINE code just begun on a rectangle of `w` by `h` pixels. -/
def decodeOf (w h : Nat) : Decode where
  work := ⟨⟨{ header 0 with w := w, h := h }, true, 0, .rendering⟩, 5, 1024, 256⟩
  phase := .code
  readPos := 0
  ahead := []
  lineCount := 0
  reference := List.replicate w false
  check := some crc32Init
  error := none
  reader := .opening
  repeatLeft := 0
  transfer := .none

/-- The text 123456789. -/
def digits : List Byte := [0x31, 0x32, 0x33, 0x34, 0x35, 0x36, 0x37, 0x38, 0x39]

/-! ### Well-formedness: each check refuses an ill-formed command -/

theorem test_body_above_4096_refused (n : Nat) (h : n = 4097) :
    (Instr.messageReceived 1 0 (List.replicate n 0) 0).wellFormed = false :=
  decide_eq_false (by rw [List.length_replicate]; omega)
theorem test_length_4096_is_not_too_long : (Instr.messageLengthTooLong 4096).wellFormed = false := by decide
theorem test_frame_above_65535_refused (n : Nat) (h : n = 65536) :
    (Instr.frameArrivalEnd (List.replicate n 0) 0).wellFormed = false :=
  decide_eq_false (by rw [List.length_replicate]; omega)
theorem test_others_well_formed : (Instr.messageLengthTooLong 4097).wellFormed = true ∧ Instr.burstDone.wellFormed = true := by
  decide

/-! ### No word spells a command; an idle step -/

theorem test_no_word (n w : Nat) : decodeTableWord n w = none := rfl
theorem test_fetch_word (s : State) (n w : Nat) : s.withFetchWord n w = s := rfl

/-! ### The manual's worked examples -/

/-- R197, R198: the checks over the text 123456789. -/
theorem test_checks : crc16 digits = 0x29B1 ∧ crc32Final (crc32Feed crc32Init digits) = 0xFC891918 := by decide +kernel

/-- The number form's examples, at its boundaries. -/
theorem test_number_form : numberBytes 5 = [0x05] ∧ numberBytes 300 = [0x82, 0x2C] ∧ numberBytes 2048 = [0x90, 0x00]
    ∧ numberBytes 2097151 = [0xFF, 0xFF, 0x7F] ∧ numberBytes 127 = [0x7F] ∧ numberBytes 128 = [0x81, 0x00] := by decide

/-- A third byte with its most significant bit set is malformed (R63). -/
theorem test_malformed_number : ([0x80, 0x80, 0x80, 0x80].foldl Decode.eat (decodeOf 16 5)).error = some 0 := by decide

/-- The small rectangle: its five commands, spelled and read. -/
theorem test_small_rectangle :
    runsBytes [4, 8, 4] = [0x80, 0x03, 0x04, 0x08, 0x04]
    ∧ flipBytes [(0, 2), (10, 2)] = [0x81, 0x02, 0x00, 0x02, 0x0A, 0x02]
    ∧ packLine (runsLine false [4, 8, 4]) = [0x0F, 0xF0]
    ∧ packLine (flipLine 0 [(0, 2), (10, 2)] (runsLine false [4, 8, 4])) = [0xCF, 0xFC]
    ∧ packLine (runsLine false [0, 16]) = [0xFF, 0xFF]
    ∧ packLine ([0x80, 0x03, 0x04, 0x08, 0x04].foldl Decode.eat (decodeOf 16 5)).reference = [0x0F, 0xF0]
    ∧ ([0x80, 0x03, 0x04, 0x08, 0x04].foldl Decode.eat (decodeOf 16 5)).lineCount = 1 := by decide

/-- The code error of the second example: runs of 5, 6 and 4 fall short of 16. -/
theorem test_short_runs : ([0x80, 0x03, 0x05, 0x06, 0x04].foldl Decode.eat { decodeOf 16 6 with lineCount := 2 }).error
    = some 2 := by decide

/-- R131: the power index of the example and of its variant, and its ends. -/
theorem test_power_index : powerIndex 20000 18182 = 4505 ∧ powerIndex 20000 26000 = 3150 ∧ powerIndex 20000 0 = 65535
    ∧ beamStatus ⟨3482, 4710⟩ (some 4505) = .ok ∧ beamStatus ⟨3482, 4710⟩ (some 3150) = .low := by decide

/-- R91, R93: the tones and the cell entries of the examples. -/
theorem test_screening :
    correctTone (List.replicate 12 0 ++ [3000, 3300, 3400, 3500, 3600]) 200 = 3150
    ∧ correctTone (List.replicate 12 0 ++ [3000, 2990, 2990, 2990, 2990]) 200 = 2995
    ∧ correctTone (List.replicate 15 0 ++ [3900, 4095]) 255 = 4083
    ∧ cellCoord 10 0 (-16384) 32768 32 = 29 ∧ cellCoord 10 0 32768 16384 32 = 5
    ∧ screenInk (List.replicate 17 3150) 200 2900 = true := by decide

/-- R135: the schedule of beams 0, 1 and 3 after a REF step. -/
theorem test_schedule : beamAbove 0b1011 none = some 0 ∧ beamAbove 0b1011 (some 0) = some 1
    ∧ beamAbove 0b1011 (some 1) = some 3 ∧ beamAbove 0b1011 (some 3) = none := by decide

/-- The ADDRESS 15 unit is named by bit 15 of a SELECT mask (R26, R194). -/
theorem test_select_mask : (base.withPins { base.pins with address := 15 }).named 0x8000 = true
    ∧ base.named 0x8000 = false ∧ base.named 0x0001 = true := by decide

/-! ### Requests run and are answered -/

/-- A PLATE DEFINE body. -/
def defining (id w h copies lead : Nat) (flags : Byte) (stamps bands : List (List Byte)) : List Byte :=
  encBE 2 id ++ encBE 2 w ++ encBE 2 h ++ [byteOf copies, byteOf lead, flags, byteOf stamps.length, byteOf bands.length]
    ++ stamps.flatten ++ bands.flatten

/-- A band list entry with an expected count and no expected signature. -/
def bandBytes (expected : Nat) : List Byte := [byteOf expected, 0, 0, 0, 0, 0]

/-- A stamp list entry. -/
def stampBytes (pattern : Nat) : List Byte := [byteOf pattern, 0, 0, 0, 0]

/-- The first plate takes position 1, and all its bands BLANK make it ready. -/
theorem test_define : reply .plateDefine (asking base 0x01 (defining 31 1024 256 1 1 0 [] [bandBytes 0])) = some (.ok, [1, 1])
    ∧ (after (exec .plateDefine (asking base 0x01 (defining 31 1024 256 1 1 0 [] [bandBytes 0])))).link.notices
      = [.plateReady 31] := by decide +kernel

/-- Each bad field alone is BADARG, at the value next to its range (R15). -/
theorem test_define_bad : ∀ b ∈ [defining 0 1024 256 1 1 0 [] [bandBytes 1], defining 31 992 256 1 1 0 [] [bandBytes 1],
    defining 31 32800 256 1 1 0 [] [bandBytes 1], defining 31 1025 256 1 1 0 [] [bandBytes 1],
    defining 31 1024 255 1 1 0 [] [bandBytes 1], defining 31 1024 32769 1 1 0 [] (List.replicate 129 (bandBytes 1)),
    defining 31 1024 257 1 1 0 [] [bandBytes 1], defining 31 1024 256 0 1 0 [] [bandBytes 1],
    defining 31 1024 256 9 1 0 [] [bandBytes 1], defining 31 1024 256 1 0 0 [] [bandBytes 1],
    defining 31 1024 256 1 17 0 [] [bandBytes 1], defining 31 1024 256 1 1 0 (List.replicate 9 (stampBytes 0)) [bandBytes 1],
    defining 31 1024 256 1 1 0 [stampBytes 32] [bandBytes 1]],
    (plateDefineBody b).map base.defineCheck = some .badArg := by decide +kernel

/-- The least and the greatest fields are taken. -/
theorem test_define_bounds : ∀ b ∈ [defining 1 1024 256 1 1 0 [] [bandBytes 1],
    defining 65535 32768 512 8 16 1 (List.replicate 8 (stampBytes 31)) [bandBytes 255, bandBytes 0]],
    (plateDefineBody b).map base.defineCheck = some .ok := by decide +kernel

/-- The manual's placements of urgent plate 40: position 2 with 10 buffers free, position 4 with 4. -/
def urgentState (free : Nat) : State :=
  let p (id need : Nat) (held : Bool) : Plate :=
    { plate .loading ((if held then [band .filling (some id)] else []) ++ List.replicate need (band .empty none)) with id := id }
  (base.withTable ⟨[{ p 31 0 true with state := .active }, p 32 2 true, p 33 4 true, p 34 5 false], [31, 32, 33, 34]⟩).withPool
    ⟨List.range free⟩
theorem test_urgent_placement :
    reply .plateDefine (asking (urgentState 10) 0x01 (defining 40 1024 768 1 1 1 [] (List.replicate 3 (bandBytes 1))))
      = some (.ok, [2, 1])
    ∧ reply .plateDefine (asking (urgentState 4) 0x01 (defining 40 1024 768 1 1 1 [] (List.replicate 3 (bandBytes 1))))
      = some (.ok, [4, 1]) := by decide +kernel

/-- A STATUS reply's result is 55 bytes; MONITOR READ's is 35. -/
theorem test_lengths : (reply .status (asking base 0x11 [])).map (fun r => r.2.length) = some 55
    ∧ (reply .monitorRead (asking base 0x0B [])).map (fun r => r.2.length) = some 35 := by decide +kernel

/-- A command out of its turn changes nothing (log 1). -/
theorem test_not_due : exec .plateAbort (asking base 0x11 []) = .next (asking base 0x11 []) := rfl

/-! ### Hypotheses met: the machine -/

theorem test_hyps_EmptyQueueIdles : base.pending = [] := rfl

/-- A burst of one byte past the 256 MiB stops; one that ends at the boundary does not. -/
theorem test_hyps_OnlyABurstOutsideMemoryStops :
    exec .burstDone (busy 268435456 (.read 1)) = .fault .outsidePlateMemory
    ∧ (after (exec .burstDone (busy 268435455 (.read 1)))).arbiter.burst = none := ⟨rfl, by decide +kernel⟩

theorem test_hyps_ResetPin : (base.withPins { base.pins with resetAsserted := true }).pins.resetAsserted = true
    ∧ Instr.plateDefine ≠ .resetPinAsserted ∧ Instr.drumReadyRise ≠ .resetPinAsserted
    ∧ (∀ a r, Instr.plateDefine ≠ .powerOnReset a r) ∧ ∀ a r, Instr.drumReadyRise ≠ .powerOnReset a r :=
  ⟨rfl, by decide, by decide, nofun, nofun⟩

/-- Screen parameters of a cell of 16 with a fill position. -/
def params (fill : Nat) : ScreenParams := ⟨16, 65536, 0, 0, 65536, List.replicate 17 4095, fill⟩

/-- The screen sets with set 0 in a state. -/
def screened (st : ScreenState) (use : Nat) : State := base.withScreens (⟨st, use⟩ :: List.replicate 7 ⟨.free, 0⟩)

theorem test_hyps_SoftResetState :
    (asking base 0x12 [0]).Heads ⟨0x12, 0x21, [0]⟩ [] ∧ (asking base 0x12 []).Heads ⟨0x12, 0x21, []⟩ []
    ∧ (screened (.loading (params 0)) 0).screens[0]? = some ⟨.loading (params 0), 0⟩
    ∧ (screened (.ready (params 256)) 3).screens[0]? = some ⟨.ready (params 256), 3⟩
    ∧ (∀ b cells, base.arbiter.burst = some b → b.op ≠ .write cells)
    ∧ (busy 0 (.read 256)).arbiter.burst = some ⟨.fetch, 0, .read 256, false⟩
    ∧ reply .softReset (asking base 0x12 [0]) = some (.badArg, []) :=
  ⟨asking_heads _ _ _ rfl rfl rfl, asking_heads _ _ _ rfl rfl rfl, by decide, by decide, nofun, rfl, by decide +kernel⟩

/-! ### Hypotheses met: the control link -/

/-- The link inside a message, with numbers of requests and replies waiting. -/
def hearing (requests replies : Nat) : State :=
  base.withLink { base.link with
    receiver := .receiving, requests := List.replicate requests ⟨0x11, 0, []⟩,
    replies := List.replicate replies ⟨some 0, .ok, []⟩ }

theorem test_hyps_ReceiverTakesMessages :
    base.pins.resetAsserted = false ∧ base.link.receiver = .hunt ∧ (hearing 0 0).link.receiver = .receiving
    ∧ (List.replicate 4096 (0 : Byte)).length ≤ 4096 ∧ crc16 (encBE 2 0 ++ 0x11 :: 0x21 :: []) = 0x80C1
    ∧ (hearing 3 0).link.requests.length < 4
    ∧ (4 ≤ (hearing 4 7).link.requests.length ∧ (hearing 4 7).link.replies.length + 0 < 8)
    ∧ (4 ≤ (hearing 4 8).link.requests.length ∧ 8 ≤ (hearing 4 8).link.replies.length + 0) :=
  ⟨rfl, rfl, rfl, by rw [List.length_replicate], by decide +kernel, by decide, by decide, by decide⟩

theorem test_hyps_LinkErrors : (hearing 0 0).pins.resetAsserted = false ∧ (hearing 0 8).link.receiver = .receiving
    ∧ 4096 < (4097 : BitVec 16).toNat ∧ crc16 (encBE 2 0 ++ 0x11 :: 0x21 :: []) ≠ 0
    ∧ (after (exec .messageGap (hearing 0 7))).link.errors = 1
    ∧ (after (exec .messageGap (hearing 0 7))).link.replies.length = 8
    ∧ (after (exec .messageGap (hearing 0 8))).link.replies.length = 8 :=
  ⟨rfl, rfl, by decide, by decide +kernel, by decide +kernel, by decide +kernel, by decide +kernel⟩

/-- The link with a notice waiting and a message being sent or not. -/
def telling (replies : List Reply) (sending : Option Message) : State :=
  base.withLink { base.link with replies := replies, notices := [.plateReady 31], sending := sending }

theorem test_hyps_TransmitterOrder :
    (telling [⟨some 0, .ok, []⟩] none).link.replies = ⟨some 0, .ok, []⟩ :: []
    ∧ (telling [⟨some 0, .ok, []⟩] none).link.sending = none
    ∧ (telling [⟨none, .linkError, []⟩] (some ⟨0x80, 0, []⟩)).link.sending = some ⟨0x80, 0, []⟩
    ∧ (telling [] none).link.notices = .plateReady 31 :: [] ∧ (telling [] none).link.replies = []
    ∧ (base.withLink { base.link with sending := some ⟨0x80, 0, []⟩ }).link.notices = [] := ⟨rfl, rfl, rfl, rfl, rfl, rfl⟩

theorem test_hyps_UnknownKindIsBadArg :
    (asking base 0 []).Heads ⟨0, 0x21, []⟩ [] ∧ (asking base 0x0C []).Heads ⟨0x0C, 0x21, []⟩ []
    ∧ ((asking base 0x13 []).Heads ⟨0x13, 0x21, []⟩ [] ∧ 0x12 < (0x13 : Byte).toNat)
    ∧ reply .unknownRequestKind (asking base 0x13 []) = some (.badArg, []) :=
  ⟨asking_heads _ _ _ rfl rfl rfl, asking_heads _ _ _ rfl rfl rfl, ⟨asking_heads _ _ _ rfl rfl rfl, by decide⟩,
    by decide +kernel⟩

theorem test_hyps_StatusReports : (asking base 0x11 []).Heads ⟨0x11, 0x21, []⟩ []
    ∧ (asking base 0x11 [0]).Heads ⟨0x11, 0x21, [0]⟩ [] ∧ reply .status (asking base 0x11 [0]) = some (.badArg, []) :=
  ⟨asking_heads _ _ _ rfl rfl rfl, asking_heads _ _ _ rfl rfl rfl, by decide +kernel⟩

/-! ### Hypotheses met: plates and bands -/

/-- A table of `n` plates. -/
def filled (n : Nat) : State :=
  base.withTable ⟨(List.range n).map fun i => { plate .done [] with id := 100 + i }, []⟩

theorem test_hyps_PlateDefineRefusals :
    ((asking base 0x01 (List.replicate 10 0)).Heads ⟨0x01, 0x21, List.replicate 10 0⟩ []
      ∧ (List.replicate 10 (0 : Byte)).length < 11)
    ∧ (plateDefineBody (defining 31 1024 256 1 1 0 [] [bandBytes 1])).isSome = true
    ∧ reply .plateDefine (asking (tabled (plate .loading [])) 0x01 (defining 31 1024 256 1 1 0 [] [bandBytes 1]))
      = some (.exists, [])
    ∧ reply .plateDefine (asking (filled 8) 0x01 (defining 31 1024 256 1 1 0 [] [bandBytes 1])) = some (.full, [])
    ∧ reply .plateDefine (asking (filled 7) 0x01 (defining 0 1024 256 1 1 0 [] [bandBytes 1])) = some (.badArg, []) :=
  ⟨⟨asking_heads _ _ _ rfl rfl rfl, by decide⟩, by decide +kernel, by decide +kernel, by decide +kernel, by decide +kernel⟩

/-- The request of `test_define_bounds` in a table of 7 other plates. -/
theorem test_hyps_PlateDefineAccepted :
    (asking (filled 7) 0x01 (defining 31 1024 256 8 16 0 [stampBytes 31] [bandBytes 1])).Heads
      ⟨0x01, 0x21, defining 31 1024 256 8 16 0 [stampBytes 31] [bandBytes 1]⟩ []
    ∧ plateDefineBody (defining 31 1024 256 8 16 0 [stampBytes 31] [bandBytes 1])
      = some ⟨31, 1024, 256, 8, 16, false, [⟨31, 0, 0⟩], [⟨1, none⟩]⟩
    ∧ (∀ p ∈ (filled 7).table.plates, p.id ≠ 31) ∧ (filled 7).table.plates.length < 8 :=
  ⟨asking_heads _ _ _ rfl rfl rfl, by decide +kernel, by decide +kernel, by decide +kernel⟩

/-- Both branches of R13 past the head, beside the tail, the empty queue and no holder. -/
theorem test_hyps_PlacementOfNewPlate :
    (plate .loading []).urgent = false ∧ ({ plate .loading [] with urgent := true } : Plate).urgent = true
    ∧ base.table.queue = [] ∧ (urgentState 10).table.queue[2]? = some 33 ∧ (urgentState 10).holds 33 = true
    ∧ (urgentState 10).table.queue[3]? = some 34 ∧ (urgentState 10).holds 34 = false
    ∧ (urgentState 10).needSum [31, 32] + 3 ≤ 10 ∧ ¬(urgentState 4).needSum [31, 32] + 3 ≤ 4
    ∧ (tabled (plate .active [])).place { plate .loading [] with urgent := true } = 1 := by decide +kernel

theorem test_hyps_GrantTest :
    99 ∉ (urgentState 10).table.queue ∧ (urgentState 10).table.queue = [] ++ 31 :: [32, 33, 34]
    ∧ (urgentState 10).table.queue = [31, 32] ++ 33 :: [34] ∧ 33 ∉ [31, 32]
    ∧ (urgentState 3).grantable 33 = true ∧ (urgentState 2).grantable 33 = false ∧ (urgentState 0).grantable 31 = false := by
  decide +kernel

theorem test_hyps_PlateRelease :
    ((asking base 0x02 [0]).Heads ⟨0x02, 0x21, [0]⟩ [] ∧ [0].length ≠ 2)
    ∧ (asking (tabled (plate .done [])) 0x02 [0, 31]).Heads ⟨0x02, 0x21, [0, 31]⟩ []
    ∧ reply .plateRelease (asking base 0x02 [0, 31]) = some (.notFound, [])
    ∧ reply .plateRelease (asking (tabled (plate .loading [])) 0x02 [0, 31]) = some (.state, [])
    ∧ (∀ st ∈ [PlateState.done, .aborted, .faulted],
      (after (exec .plateRelease (asking (tabled (plate st [])) 0x02 [0, 31]))).table = ⟨[], []⟩) :=
  ⟨⟨asking_heads _ _ _ rfl rfl rfl, by decide⟩, asking_heads _ _ _ rfl rfl rfl, by decide +kernel, by decide +kernel,
    by decide +kernel⟩

theorem test_hyps_PlateAbort :
    ((asking base 0x03 [0]).Heads ⟨0x03, 0x21, [0]⟩ [] ∧ [0].length ≠ 2)
    ∧ (asking (working .exposing 1 []) 0x03 [0, 31]).Heads ⟨0x03, 0x21, [0, 31]⟩ []
    ∧ reply .plateAbort (asking base 0x03 [0, 31]) = some (.notFound, [])
    ∧ reply .plateAbort (asking (tabled (plate .done [])) 0x03 [0, 31]) = some (.state, [])
    ∧ ((working .exposing 1 []).plate? 31).map Plate.state = some .active
    ∧ (after (exec .plateAbort (asking (working .exposing 1 []) 0x03 [0, 31]))).engine.taken = none
    ∧ (after (exec .plateAbort (asking (tabled (plate .loading [band .filling (some 4)])) 0x03 [0, 31]))).pool.free.getLast?
      = some 4 :=
  ⟨⟨asking_heads _ _ _ rfl rfl rfl, by decide⟩, asking_heads _ _ _ rfl rfl rfl, by decide +kernel, by decide +kernel,
    by decide +kernel, by decide +kernel, by decide +kernel⟩

/-- Counts 0 and 33, and a first band past the last, are BADARG; count 32 is cut at the plate's bands. -/
theorem test_hyps_BandQuery :
    ((asking base 0x04 [0]).Heads ⟨0x04, 0x21, [0]⟩ [] ∧ [0].length ≠ 4)
    ∧ (asking (tabled (plate .done [band .blank none])) 0x04 [0, 31, 0, 32]).Heads ⟨0x04, 0x21, [0, 31, 0, 32]⟩ []
    ∧ reply .bandQuery (asking base 0x04 [0, 31, 0, 1]) = some (.notFound, [])
    ∧ (∀ b ∈ [[0, 31, 0, 0], [0, 31, 0, 33], [0, 31, 1, 1]],
      reply .bandQuery (asking (tabled (plate .done [band .blank none])) 0x04 b) = some (.badArg, []))
    ∧ (reply .bandQuery (asking (tabled (plate .done [band .blank none])) 0x04 [0, 31, 0, 32])).map (fun r => r.2.head?)
      = some (some 1) :=
  ⟨⟨asking_heads _ _ _ rfl rfl rfl, by decide⟩, asking_heads _ _ _ rfl rfl rfl, by decide +kernel, by decide +kernel,
    by decide +kernel⟩

/-! ### Hypotheses met: the page feed -/

/-- The frame buffer holding `n` bytes. -/
def holding (n : Nat) : State := base.withFeed { base.feed with buffer := [.frame 3 n .checkError] }

/-- A frame of 12 bytes fits into the last 12 of 16384, and not into 11; a body of 4097 takes 5. -/
theorem test_hyps_FrameArrivalStart : base.pins.resetAsserted = false ∧ (holding 16372).feed.receiver = .between
    ∧ frameLevel (holding 16372).feed.buffer + (7 + 5) ≤ 16384 ∧ 16384 < frameLevel (holding 16373).feed.buffer + (7 + 5)
    ∧ 4096 < (4097 : BitVec 16).toNat ∧ ¬4096 < (4096 : BitVec 16).toNat
    ∧ (after (exec (.frameArrivalStart 3 7) (holding 16372))).feed.receiver = .stored 3 7
    ∧ (after (exec (.frameArrivalStart 3 7) (holding 16373))).feed.counters.overruns = 1 :=
  ⟨rfl, rfl, by decide, by decide, by decide, by decide, by decide +kernel, by decide +kernel⟩

/-- A frame of a kind arriving as the receiver follows it. -/
def arriving (r : FeedReceiver) : State :=
  base.withFeed { base.feed with receiver := r, buffer := [.loss] ++ [.frame 1 7 .arriving] }

theorem test_hyps_FrameEnds :
    (arriving (.stored 1 2)).feed.receiver = .stored 1 [0x00, 0x01].length
    ∧ (arriving (.stored 1 2)).feed.buffer = [.loss] ++ [.frame 1 7 .arriving]
    ∧ (∀ x ∈ [FrameItem.loss], ∀ k n, x ≠ .frame k n .arriving)
    ∧ (arriving (.overlong 1 2)).feed.receiver = .overlong 1 2 ∧ (arriving (.lost 2)).feed.receiver = .lost 2
    ∧ base.feed.receiver = .between
    ∧ (after (exec (.frameArrivalEnd [0, 1] (crc16 [1, 0, 2, 0, 1])) (arriving (.stored 1 2)))).feed.buffer
      = [.loss, .frame 1 7 (.good [0, 1])]
    ∧ (after (exec (.frameArrivalEnd [0, 1] 0) (arriving (.stored 1 2)))).feed.buffer = [.loss, .frame 1 7 .checkError]
    ∧ (after (exec .feedFrameGap (arriving (.stored 1 2)))).feed.buffer = [.loss, .frame 1 5 .checkError] :=
  ⟨rfl, rfl, by simp, rfl, rfl, rfl, by decide +kernel, by decide +kernel, by decide +kernel⟩

/-- A byte fewer and a byte more than a stored, an overlong and a lost frame announced end none of them. -/
theorem test_hyps_FrameEnds_other_length :
    ∀ r ∈ [FeedReceiver.stored 1 2, .overlong 1 2, .lost 2], ∀ body ∈ [[(0 : Byte)], [0, 1, 0]],
      2 ≠ body.length ∧ (arriving r).feed.receiver = r
        ∧ after (exec (.frameArrivalEnd body 0) (arriving r)) = arriving r := by decide +kernel

/-- FEED HOLD at its marks (R37). -/
theorem test_hold_marks : holdAfter false 12288 0 67108864 = true ∧ holdAfter false 12287 239 4194304 = false
    ∧ holdAfter false 0 240 67108864 = true ∧ holdAfter false 0 0 4194303 = true
    ∧ holdAfter true 4096 224 8388608 = false ∧ holdAfter true 4097 0 67108864 = true
    ∧ holdAfter true 0 225 67108864 = true ∧ holdAfter true 0 0 8388607 = true := by decide

theorem test_hyps_SegmentAbandoned : (taking (.assembling (openSeg 0))).feed.intake = .assembling (openSeg 0)
    ∧ (∀ seg, base.feed.intake ≠ .assembling seg) ∧ (openSeg 0).header.kind = .line
    ∧ ({ openSeg 0 with writing := some ([1], 0) } : OpenSegment).writing.isSome = true := ⟨rfl, nofun, rfl, rfl⟩

theorem test_hyps_SelectTaken : (feeding base 1 [0x00, 0x01]).HeadFrame 1 7 [0x00, 0x01] []
    ∧ (∀ seg, base.feed.intake ≠ .assembling seg)
    ∧ (feeding (taking (.assembling (openSeg 0))) 1 [0xFF, 0xFE]).HeadFrame 1 7 [0xFF, 0xFE] []
    ∧ (after (exec .selectFrame (feeding base 1 [0x00, 0x01]))).feed.intake = .selected
    ∧ (after (exec .selectFrame (feeding (taking .selected) 1 [0xFF, 0xFE]))).feed.intake = .unselected :=
  ⟨feeding_headFrame _ _ _ rfl rfl, nofun, feeding_headFrame _ _ _ rfl rfl, by decide +kernel, by decide +kernel⟩

/-- A header's 27 bytes for plate 31: kind, mode, flags, x0, y0, w, h, declared, screen set, sw, sh. -/
def opening (band seq : Nat) (kind mode : Byte) (x0 y0 w h declared screen sw sh : Nat) : List Byte :=
  encBE 2 31 ++ [byteOf band, byteOf seq, kind, mode, 0] ++ encBE 2 x0 ++ [byteOf y0] ++ encBE 2 w ++ encBE 2 h
    ++ encBE 4 declared ++ encBE 4 0 ++ [byteOf screen] ++ encBE 2 sw ++ encBE 2 sh

/-- Plate 31 LOADING with band 0 EMPTY and band 1 STARVED; band 1 is 44 lines high. -/
def openable : State := tabled (plate .loading [band .empty none, band .starved none])

/-- Each reason of R28, at a boundary value, and an accepted header. -/
theorem test_open_reasons :
    base.openCheck (openHeader (opening 0 0 1 0 8 0 16 4 17 0 0 0)) = some .noPlate
    ∧ openable.openCheck (openHeader (opening 2 0 1 0 8 0 16 4 17 0 0 0)) = some .badBand
    ∧ openable.openCheck (openHeader (opening 0 2 1 0 8 0 16 4 17 0 0 0)) = some .badSeq
    ∧ openable.openCheck (openHeader (opening 1 0 1 0 8 0 16 4 17 0 0 0)) = some .late
    ∧ (openable.withSegs ⟨[entry .queued true], 17⟩).openCheck (openHeader (opening 0 0 1 0 8 0 16 4 17 0 0 0)) = some .dup
    ∧ openable.openCheck (openHeader (opening 0 0 1 0 1024 0 16 4 17 0 0 0)) = some .badRect
    ∧ openable.openCheck (openHeader (opening 0 0 3 0 1023 255 16 4 17 0 0 0)) = some .badParam
    ∧ openable.openCheck (openHeader (opening 0 0 2 0 8 0 16 4 12 7 3 4)) = some .noScreen
    ∧ openable.openCheck (openHeader (opening 0 0 2 0 8 0 16 4 13 7 3 4)) = some .badParam
    ∧ (openable.withSegs ⟨[⟨{ header 1 with declared := 67108848 }, true, 0, .rendered⟩], 0⟩).openCheck
        (openHeader (opening 0 0 1 0 8 0 16 4 17 0 0 0)) = some .noRoom
    ∧ openable.openCheck (openHeader (opening 0 0 1 0 1023 255 32768 256 16777216 0 0 0)) = none := by decide +kernel

theorem test_hyps_OpenChecks :
    (∀ p, base.plate? 31 = some p → p.state = .done ∨ p.state = .aborted ∨ p.state = .faulted)
    ∧ openable.plate? 31 = some (plate .loading [band .empty none, band .starved none])
    ∧ (plate .loading [band .empty none, band .starved none]).bands.length ≤ 2
    ∧ (plate .loading [band .empty none, band .starved none]).bands[1]? = some (band .starved none) :=
  ⟨nofun, by decide +kernel, by decide, by decide⟩

/-- An OPEN for plate 31 before the intake in a state. -/
def openFrom (i : Intake) : State := feeding (openable.setIntake i) 2 (opening 0 0 1 0 8 0 16 4 17 0 0 0)

theorem test_hyps_OpenTaken :
    (openFrom .unselected).HeadFrame 2 32 (opening 0 0 1 0 8 0 16 4 17 0 0 0) []
    ∧ (openFrom (.assembling (openSeg 0))).HeadFrame 2 32 (opening 0 0 1 0 8 0 16 4 17 0 0 0) []
    ∧ (openFrom .skipping).HeadFrame 2 32 (opening 0 0 1 0 8 0 16 4 17 0 0 0) []
    ∧ (openFrom .selected).openCheck (openHeader (opening 0 0 1 0 8 0 16 4 17 0 0 0)) = none
    ∧ ((openFrom .selected).withSegs ⟨[entry .queued true], 17⟩).openCheck (openHeader (opening 0 0 1 0 8 0 16 4 17 0 0 0))
      = some .dup
    ∧ (feeding (taking .selected) 2 (opening 0 0 1 0 8 0 16 4 17 0 0 0)).openCheck
        (openHeader (opening 0 0 1 0 8 0 16 4 17 0 0 0)) = some .noPlate
    ∧ (after (exec .openFrame (openFrom .selected))).segs.queue = [entry .assembling true] :=
  ⟨feeding_headFrame _ _ _ rfl rfl, feeding_headFrame _ _ _ rfl rfl, feeding_headFrame _ _ _ rfl rfl, by decide +kernel,
    by decide +kernel, by decide +kernel, by decide +kernel⟩

/-- Byte 17 of 17 fits; byte 18 does not. -/
theorem test_hyps_DataTaken :
    (feeding (taking (.assembling (openSeg 16))) 3 [0x80]).HeadFrame 3 6 [0x80] []
    ∧ (openSeg 16).received + [(0x80 : Byte)].length ≤ (openSeg 16).header.declared
    ∧ (openSeg 17).header.declared < (openSeg 17).received + [(0x80 : Byte)].length
    ∧ (feeding (taking .selected) 3 [0x80]).HeadFrame 3 6 [0x80] []
    ∧ (feeding base 3 [0x80]).HeadFrame 3 6 [0x80] [] ∧ (feeding (taking .skipping) 3 [0x80]).HeadFrame 3 6 [0x80] []
    ∧ (after (exec .dataFrame (feeding (taking .selected) 3 [0x80]))).feed.counters.strays = 1 :=
  ⟨feeding_headFrame _ _ _ rfl rfl, by decide, by decide, feeding_headFrame _ _ _ rfl rfl, feeding_headFrame _ _ _ rfl rfl,
    feeding_headFrame _ _ _ rfl rfl, by decide +kernel⟩

/-- The payload check of no bytes is 0 after the final step's complement of the register's ones. -/
theorem test_hyps_CloseTaken :
    (feeding (taking (.assembling (openSeg 17))) 4 [0, 0, 0, 0]).HeadFrame 4 9 [0, 0, 0, 0] []
    ∧ (openSeg 16).received ≠ (openSeg 16).header.declared ∧ (openSeg 17).received = (openSeg 17).header.declared
    ∧ ~~~(openSeg 17).check = BitVec.ofNat 32 (field [0, 0, 0, 0] 0 4)
    ∧ ~~~(openSeg 17).check ≠ BitVec.ofNat 32 (field [0, 0, 0, 1] 0 4)
    ∧ (feeding (taking .selected) 4 [0, 0, 0, 0]).HeadFrame 4 9 [0, 0, 0, 0] []
    ∧ (feeding base 4 [0, 0, 0, 0]).HeadFrame 4 9 [0, 0, 0, 0] []
    ∧ (after (exec .closeFrame (feeding (taking (.assembling (openSeg 17))) 4 [0, 0, 0, 0]))).feed.intake = .selected :=
  ⟨feeding_headFrame _ _ _ rfl rfl, by decide, by decide, by decide, by decide, feeding_headFrame _ _ _ rfl rfl,
    feeding_headFrame _ _ _ rfl rfl, by decide +kernel⟩

theorem test_hyps_BadFrameTaken :
    (holding 9).feed.buffer = [.frame 3 9 .checkError] ∧ (holding 9).feed.intake.writing = false
    ∧ (∀ seg, (holding 9).feed.intake ≠ .assembling seg)
    ∧ ((holding 9).setIntake (.assembling (openSeg 0))).feed.intake.writing = false
    ∧ (after (exec .checkErrorFrame (holding 9))).feed.counters.checkErrors = 1
    ∧ (base.withFeed { base.feed with buffer := [.loss] }).feed.buffer = .loss :: []
    ∧ (after (exec .lossMark (base.withFeed { base.feed with buffer := [.loss] }))).feed.buffer = [] :=
  ⟨rfl, rfl, nofun, rfl, by decide +kernel, rfl, by decide +kernel⟩

theorem test_hyps_FeedClear : (asking base 0x05 []).Heads ⟨0x05, 0x21, []⟩ []
    ∧ (asking base 0x05 [0]).Heads ⟨0x05, 0x21, [0]⟩ []
    ∧ reply .feedClear (asking base 0x05 []) = some (.ok, List.replicate 10 0) :=
  ⟨asking_heads _ _ _ rfl rfl rfl, asking_heads _ _ _ rfl rfl rfl, by decide +kernel⟩

/-! ### Hypotheses met: rendering -/

/-- A QUEUED entry of plate 31, band 0, behind a DEAD one; the band with a buffer or none. -/
def queued (buffer : Option Nat) : State :=
  (tabled (plate .loading [band .empty buffer, band .blank none])).withSegs ⟨[entry .dead true, entry .queued true], 34⟩

theorem test_hyps_RenderStart :
    (queued none).pins.resetAsserted = false ∧ (queued none).decoder = none
    ∧ (queued none).segs.queue = [entry .dead true] ++ entry .queued true :: []
    ∧ (queued none).eligible (entry .dead true) = false ∧ (queued none).eligible (entry .queued true) = true
    ∧ (queued (some 7)).eligible (entry .queued true) = true
    ∧ (queued none).plate? 31 = some (plate .loading [band .empty none, band .blank none])
    ∧ (queued none).pool.free = 0 :: (List.range 160).tail ∧ (queued (some 7)).pool.free = List.range 160
    ∧ (after (exec (.renderStart .line) (queued none))).decoder.isSome = true := by decide +kernel

/-- A decode of the first segment of band 0 that has ended. -/
def ended (linked : Bool) : Decode :=
  { decodeOf 16 4 with
    work := ⟨entry .rendering linked, 5, 1024, 256⟩, phase := .ended, lineCount := 4 }

/-- A screen that has ended. -/
def endedScreen : Screen :=
  ⟨⟨{ entry .rendering true with header := { header 0 with kind := .tone } }, 5, 1024, 256⟩, .ended, 4, none, .none⟩

/-- Plate 31 with its band 0 under a render. -/
def rendering (st : PlateState) : State := tabled (plate st [band .filling (some 5), band .blank none])

theorem test_hyps_RenderEnd :
    (ended true).phase = .ended ∧ (ended true).transfer.cells = [] ∧ (ended true).mismatch = false
    ∧ ({ ended true with work := ⟨⟨{ header 0 with check := some 1 }, true, 0, .rendering⟩, 5, 1024, 256⟩ } : Decode).mismatch
      = true
    ∧ endedScreen.phase = .ended ∧ endedScreen.transfer.cells = []
    ∧ (rendering .loading).plate? 31 = some (plate .loading [band .filling (some 5), band .blank none])
    ∧ (after (exec .lineDecodeEnd ((rendering .loading).withDecoder (some (ended true))))).pool.free = List.range 160
    ∧ (after (exec .lineDecodeEnd ((rendering .aborted).withDecoder (some (ended true))))).pool.free = List.range 160 ++ [5]
    ∧ (after (exec .lineDecodeEnd ((rendering .loading).withDecoder (some (ended false))))).pool.free = List.range 160 ++ [5]
    ∧ (after (exec .screenRenderEnd ((rendering .loading).withScreener (some endedScreen)))).screener = none := by
  decide +kernel

theorem test_hyps_LineCode : (decodeOf 16 5).reader = .opening ∧ [0, 16] ≠ [] ∧ [0, 16].sum = 16
    ∧ (∀ n ∈ [0, 16].tail, n ≠ 0) ∧ ([(0, 2), (10, 4)].map fun x => x.1 + x.2).sum ≤ 16
    ∧ (∀ x ∈ [(0, 2), (10, 4)], x.2 ≠ 0)
    ∧ ((decodeOf 16 5).eat 0x04).repeatLeft = 5 ∧ ((decodeOf 16 5).eat 0x05).error = some 0
    ∧ ((decodeOf 16 5).eat 0x7F).error = some 0 ∧ ((decodeOf 16 5).eat 0x82).error = some 0
    ∧ ((decodeOf 16 5).eat 0x81).error = none := by decide

/-- 5 in two bytes and 2097151; runs and spans spelled with them; the numbers that err at their bounds, and the malformed one. -/
theorem test_hyps_LineCode_numbers :
    Spells [0x80, 0x05] 5 ∧ Spells [0xFF, 0xFF, 0x7F] 2097151 ∧ NumberErrs [0x80, 0xFF, 0x80] (fun _ => False)
    ∧ List.Forall₂ Spells [[0x80, 0x04], [0x08]] [4, 8]
    ∧ NumberErrs [0x82, 0x80, 0x01] (fun n => n = 0 ∨ 32768 < n) ∧ NumberErrs [0x00] (fun n => n = 0 ∨ 32768 < n)
    ∧ NumberErrs [0x81, 0x80, 0x01] (fun n => 16384 < n) :=
  ⟨⟨[0x80], 0x05, by decide⟩, ⟨[0xFF, 0xFF], 0x7F, by decide⟩, .inl (by decide),
    .cons ⟨[0x80], 0x04, by decide⟩ (.cons ⟨[], 0x08, by decide⟩ .nil), .inr ⟨32769, ⟨[0x82, 0x80], 0x01, by decide⟩, by decide⟩,
    .inr ⟨0, ⟨[], 0x00, by decide⟩, by decide⟩, .inr ⟨16385, ⟨[0x81, 0x80], 0x01, by decide⟩, by decide⟩⟩

/-- On 16 pixels: runs 4, 8 with a third of 0, 5 and 3 are in error and one of 4 ends the line; of spans (0, 2), (10, x), x = 0
and 5 are in error and 4 ends the line; a third byte that goes on is in error in each place. -/
theorem test_hyps_LineCode_errors :
    let read (bytes : List Byte) : Option Nat × Nat :=
      let d := bytes.foldl Decode.eat (decodeOf 16 4)
      (d.error, d.lineCount)
    (∀ v ∈ [0x00, 0x05, 0x03], read [0x80, 0x03, 0x80, 0x04, 0x08, v] = (some 0, 0))
    ∧ read [0x80, 0x03, 0x80, 0x04, 0x08, 0x04] = (none, 1)
    ∧ (∀ v ∈ [0x00, 0x05], read [0x81, 0x02, 0x00, 0x02, 0x0A, v] = (some 0, 0))
    ∧ read [0x81, 0x02, 0x00, 0x02, 0x0A, 0x80, 0x04] = (none, 1)
    ∧ ∀ p ∈ [[0x80], [0x80, 0x02], [0x81], [0x81, 0x01], [0x81, 0x01, 0x00]], read (p ++ [0x80, 0x80, 0x80]) = (some 0, 0) := by
  decide +kernel

/-! ### Hypotheses met: screen sets -/

/-- A SCREEN BEGIN body with a cell size, one coefficient and one curve point. -/
def beginning (n cell : Nat) (coefficient : List Byte) (point : Nat) : List Byte :=
  [byteOf n, byteOf cell] ++ coefficient ++ List.replicate 12 0 ++ encBE 2 point ++ List.replicate 32 0

theorem test_hyps_ScreenBegin : base.screens.length = 8
    ∧ (asking base 0x06 (beginning 7 128 [0x00, 0x0F, 0xFF, 0xFF] 4095)).Heads
      ⟨0x06, 0x21, beginning 7 128 [0x00, 0x0F, 0xFF, 0xFF] 4095⟩ []
    ∧ reply .screenBegin (asking base 0x06 (beginning 7 128 [0x00, 0x0F, 0xFF, 0xFF] 4095)) = some (.ok, [])
    ∧ reply .screenBegin (asking base 0x06 (beginning 0 16 [0xFF, 0xF0, 0x00, 0x00] 0)) = some (.ok, [])
    ∧ reply .screenBegin (asking base 0x06 (beginning 0 16 [0xFF, 0xEF, 0xFF, 0xFF] 0)) = some (.badArg, [])
    ∧ reply .screenBegin (asking base 0x06 (beginning 8 16 [0, 0, 0, 0] 0)) = some (.badArg, [])
    ∧ reply .screenBegin (asking base 0x06 (beginning 0 17 [0, 0, 0, 0] 0)) = some (.badArg, [])
    ∧ reply .screenBegin (asking base 0x06 (beginning 0 16 [0, 0x10, 0, 0] 0)) = some (.badArg, [])
    ∧ reply .screenBegin (asking base 0x06 (beginning 0 16 [0, 0, 0, 0] 4096)) = some (.badArg, [])
    ∧ reply .screenBegin (asking (screened .free 1) 0x06 (beginning 0 17 [0, 0, 0, 0] 0)) = some (.busy, []) :=
  ⟨rfl, asking_heads _ _ _ rfl rfl rfl, by decide +kernel, by decide +kernel, by decide +kernel, by decide +kernel,
    by decide +kernel, by decide +kernel, by decide +kernel, by decide +kernel⟩

theorem test_hyps_ScreenTable :
    (asking (screened (.loading (params 255)) 0) 0x07 [0, 0, 255, 0, 1, 0x0F, 0xFF]).Heads
      ⟨0x07, 0x21, [0, 0, 255, 0, 1, 0x0F, 0xFF]⟩ []
    ∧ (after (exec .screenTable (asking (screened (.loading (params 255)) 0) 0x07 [0, 0, 255, 0, 1, 0x0F, 0xFF]))).link.job
      = some ⟨0, 255, [0x0F, 0xFF], 0⟩
    ∧ reply .screenTable (asking base 0x07 [0, 0, 0, 0, 0]) = some (.badArg, [])
    ∧ reply .screenTable (asking base 0x07 [0, 0, 0, 0, 1, 0, 1]) = some (.state, [])
    ∧ reply .screenTable (asking (screened (.loading (params 2)) 0) 0x07 [0, 0, 1, 0, 1, 0, 1]) = some (.badSeq, [0, 2])
    ∧ reply .screenTable (asking (screened (.loading (params 256)) 0) 0x07 [0, 1, 0, 0, 1, 0, 1]) = some (.badArg, [])
    ∧ reply .screenTable (asking (screened (.loading (params 0)) 0) 0x07 [0, 0, 0, 0, 1, 0, 0]) = some (.badArg, [])
    ∧ reply .screenTable (asking (screened (.loading (params 0)) 0) 0x07 [0, 0, 0, 0, 1, 0x10, 0]) = some (.badArg, [])
    ∧ (((asking (screened (.loading (params 255)) 0) 0x07 []).withLink
        { base.link with requests := [⟨7, 0x21, []⟩], job := some ⟨0, 255, [0x0F, 0xFF], 0⟩ }).tableBurstDone 2).link.replies
      = [⟨some 0x21, .ok, [1, 0]⟩] :=
  ⟨asking_heads _ _ _ rfl rfl rfl, by decide +kernel, by decide +kernel, by decide +kernel, by decide +kernel,
    by decide +kernel, by decide +kernel, by decide +kernel, by decide +kernel⟩

theorem test_hyps_ScreenEnd : (asking (screened (.loading (params 256)) 0) 0x08 [0]).Heads ⟨0x08, 0x21, [0]⟩ []
    ∧ reply .screenEnd (asking (screened (.loading (params 256)) 0) 0x08 [0]) = some (.ok, [])
    ∧ reply .screenEnd (asking (screened (.loading (params 255)) 0) 0x08 [0]) = some (.incomplete, [0, 255, 1, 0])
    ∧ reply .screenEnd (asking base 0x08 [7]) = some (.state, []) ∧ reply .screenEnd (asking base 0x08 [8]) = some (.badArg, [])
    ∧ reply .screenEnd (asking base 0x08 []) = some (.badArg, []) :=
  ⟨asking_heads _ _ _ rfl rfl rfl, by decide +kernel, by decide +kernel, by decide +kernel, by decide +kernel,
    by decide +kernel⟩

/-- The ends of each range, and a curve that reaches both. -/
theorem test_hyps_ScreeningLaw : sourceIndex 0 1 4096 = 2048 ∧ sourceIndex 32767 32768 1 = 0
    ∧ (List.replicate 16 4095 ++ [0]).length = 17 ∧ (∀ c ∈ List.replicate 16 4095 ++ [0], c ≤ 4095)
    ∧ correctTone (List.replicate 17 0) 0 = 0 ∧ screenInk (List.replicate 17 0) 0 1 = false
    ∧ correctTone (List.replicate 17 4095) 255 = 4095 ∧ screenInk (List.replicate 17 4095) 255 4095 = true := by decide

/-! ### Hypotheses met: plate memory -/

/-- The intake and the line decoder waiting for the arbiter. -/
def contending : State :=
  (taking (.assembling { openSeg 0 with writing := some ([0x80, 0x03], 0) })).withDecoder
    (some { decodeOf 16 4 with work := ⟨entry .rendering true, 5, 1024, 256⟩ })

theorem test_hyps_BurstGrant : contending.arbiter.burst = none ∧ (contending.waiting .intake).isSome = true
    ∧ (contending.waiting .decoder).isSome = true ∧ contending.waiting .fetch = none
    ∧ ((after (exec .burstGrant contending)).arbiter.burst.map Burst.who) = some .intake
    ∧ (after (exec .burstGrant (contending.setIntake .skipping))).arbiter.lastServed = some .line
    ∧ (∀ w, base.waiting w = none) ∧ (busy 0 (.read 1)).arbiter.burst ≠ none := by
  refine ⟨rfl, by decide +kernel, by decide +kernel, by decide +kernel, by decide +kernel, by decide +kernel, ?_, by decide⟩
  intro w
  cases w <;> rfl

theorem test_hyps_BurstDone :
    (busy 0 (.read 268435456)).arbiter.burst = some ⟨.fetch, 0, .read 268435456, false⟩
    ∧ (busy 268435455 (.write [.plain 7])).memory.wf = true
    ∧ (after (exec .burstDone (busy 268435455 (.write [.plain 7])))).memory.cells = [(268435455, 7)] :=
  ⟨rfl, by decide, by decide +kernel⟩

/-- A read of line 3 with 127 of 128 bytes. -/
def reading (fate : ReadFate) : State :=
  (working .exposing 1 []).withEngine
    { (working .exposing 1 []).engine with read := some ⟨31, 1, 3, 0, 128, List.replicate 127 0, fate⟩ }

theorem test_hyps_BurstServesRequester :
    (reading .join).engine.read = some ⟨31, 1, 3, 0, 128, List.replicate 127 0, .join⟩
    ∧ ((reading .join).fetchBurstDone []).engine.fifo = [] ∧ ((reading .join).fetchBurstDone [1]).engine.fifo.length = 1
    ∧ ((reading .discard).fetchBurstDone [1]).engine.read = none
    ∧ contending.feed.intake = .assembling { openSeg 0 with writing := some ([0x80, 0x03], 0) }
    ∧ (0 + 1 < [(0x80 : Byte), 0x03].length ∧ [(0x80 : Byte), 0x03].length ≤ 0 + 2) := by decide +kernel

/-! ### Hypotheses met: exposure -/

theorem test_hyps_PlateExpose :
    (asking (tabled (plate .loading [])) 0x09 [0, 31]).Heads ⟨0x09, 0x21, [0, 31]⟩ []
    ∧ (asking base 0x09 [0]).Heads ⟨0x09, 0x21, [0]⟩ []
    ∧ reply .plateExpose (asking base 0x09 [0, 31]) = some (.notFound, [])
    ∧ reply .plateExpose (asking (tabled (plate .done [])) 0x09 [0, 31]) = some (.state, [])
    ∧ (after (exec .plateExpose (asking (tabled (plate .loading [band .empty none])) 0x09 [0, 31]))).engine.state = .waitLead
    ∧ (after (exec .plateExpose (asking (tabled (plate .loading [band .blank none])) 0x09 [0, 31]))).engine.state = .waitDrum
    ∧ (working .exposing 1 []).engine.state ≠ .idle ∧ base.table.queue.head?.bind base.plate? = none :=
  ⟨asking_heads _ _ _ rfl rfl rfl, asking_heads _ _ _ rfl rfl rfl, by decide +kernel, by decide +kernel, by decide +kernel,
    by decide +kernel, by decide, by decide +kernel⟩

/-- An EXPOSE SETUP body with the given D, timeout, x, first pattern, gate, interval, beam set and first window. -/
def setting (d timeout x pattern gate interval set lo hi : Nat) : List Byte :=
  [byteOf d] ++ encBE 2 timeout ++ encBE 2 x ++ byteOf pattern :: List.replicate 7 255 ++ encBE 2 gate ++ encBE 2 interval
    ++ [byteOf set] ++ encBE 2 lo ++ encBE 2 hi ++ List.replicate 12 0

theorem test_hyps_ExposeSetup :
    (asking base 0x0A (setting 24 10000 32704 31 1024 1024 15 5 5)).Heads
      ⟨0x0A, 0x21, setting 24 10000 32704 31 1024 1024 15 5 5⟩ []
    ∧ reply .exposeSetup (asking base 0x0A (setting 24 10000 32704 31 1024 1024 15 5 5)) = some (.ok, [0, 24, 0])
    ∧ reply .exposeSetup (asking base 0x0A (setting 25 1 0 255 65535 16 0 0 0)) = some (.ok, [0, 24, 1])
    ∧ reply .exposeSetup (asking (working .exposing 1 []) 0x0A (setting 4 1 0 255 1024 16 0 0 0)) = some (.ok, [1, 4, 0])
    ∧ (∀ b ∈ [setting 3 1 0 255 1024 16 0 0 0, setting 4 0 0 255 1024 16 0 0 0, setting 4 10001 0 255 1024 16 0 0 0,
        setting 4 1 32705 255 1024 16 0 0 0, setting 4 1 0 32 1024 16 0 0 0, setting 4 1 0 254 1024 16 0 0 0,
        setting 4 1 0 255 1023 16 0 0 0, setting 4 1 0 255 1024 15 0 0 0, setting 4 1 0 255 1024 1025 0 0 0,
        setting 4 1 0 255 1024 16 16 0 0, setting 4 1 0 255 1024 16 0 1 0, [4]],
      reply .exposeSetup (asking base 0x0A b) = some (.badArg, [])) :=
  ⟨asking_heads _ _ _ rfl rfl rfl, by decide +kernel, by decide +kernel, by decide +kernel, by decide +kernel⟩

/-- The fetch at a line of plate 31. -/
def fetching (l : Nat) (bands : List Band) : State :=
  (working .exposing 1 bands).withEngine { (working .exposing 1 bands).engine with fetchPos := l }

theorem test_hyps_FetchLineBegin :
    (fetching 0 []).engine.taken = some ⟨31, 1⟩ ∧ (fetching 0 []).engine.running = true ∧ (fetching 0 []).engine.read = none
    ∧ (fetching 0 []).engine.fifo.length < 32 ∧ 299 < 4 * ((300 + 3) / 4)
    ∧ (fetching 0 [band .ready (some 2)]).plate? 31 = some (plate .active [band .ready (some 2)])
    ∧ ((after (exec .fetchLineBegin (fetching 0 [band .ready (some 2)]))).engine.read.map FetchRead.addr) = some 2097152
    ∧ ((after (exec .fetchLineBegin (fetching 255 [band .exposing (some 2)]))).engine.read.map FetchRead.addr)
      = some (2097152 + 4096 * 255)
    ∧ (after (exec .fetchLineBegin (fetching 299 [band .exposed none, band .blank none]))).engine.fifo.length = 1
    ∧ ((after (exec .fetchLineBegin (fetching 256 [band .exposed none, band .filling (some 3)]))).band? 31 1).map Band.state
      = some .starved
    ∧ ((after (exec .fetchLineBegin ((tabled { plate .active [band .blank none] with height := 254 }).withEngine
        { (fetching 255 []).engine with fetchPos := 255 }))).engine.fifo.map FifoLine.line) = [255] := by decide +kernel

/-- An engine state with the swath counter and edge seen. -/
def revolving (st : EngineState) (copy swath : Nat) (edge : Bool) : State :=
  (working st copy [band .exposed none, band .exposed none]).withEngine
    { (working st copy []).engine with swath := swath, edgeSeen := edge }

/-- Swath 75 of 75 ends the copy; swath 74 does not. -/
theorem test_hyps_IndexTaken : base.engine.state = .idle
    ∧ ((working .waitDrum 1 []).withPins { base.pins with drumReady := true }).pins.drumReady = true
    ∧ (after (exec (.index 0 0) ((working .waitDrum 1 []).withPins { base.pins with drumReady := true }))).engine.state = .leadIn
    ∧ (after (exec (.index 0 0) (working .waitDrum 1 []))).engine.state = .waitDrum
    ∧ (after (exec (.index 0 0) (working (.change .awaitIndex) 1 []))).engine.state = .leadIn
    ∧ (after (exec (.index 0 0) (working .leadIn 1 []))).engine.state = .exposing
    ∧ (after (exec (.index 0 0) (revolving .exposing 1 74 true))).engine.state = .exposing
    ∧ (after (exec (.index 0 0) (revolving .exposing 1 75 true))).engine.state = .change .awaitFall
    ∧ (0 + 1 < (plate .active []).copies ∧ ({ plate .active [] with completed := 1 } : Plate).copies ≤ 1 + 1)
    ∧ (after (exec (.index 0 0) ((revolving .exposing 2 75 true).withTable
        ⟨[{ plate .active [] with completed := 1 }], [31]⟩))).table.queue = [] := by decide +kernel

/-- Lines of 4 bytes in the FIFO. -/
def lined (lines : List Nat) : State :=
  (revolving .exposing 1 0 false).withEngine
    { (revolving .exposing 1 0 false).engine with fifo := lines.map fun l => ⟨l, List.replicate 4 0⟩ }

theorem test_hyps_ImageEdge : (revolving .exposing 1 0 true).engine.edgeSeen = true
    ∧ (working .leadIn 1 []).monitor.step = .none ∧ (lined [0, 1, 2, 3]).engine.edgeSeen = false
    ∧ ((lined [0, 1, 2, 3]).engine.fifo.take 4).map FifoLine.line = [0, 1, 2, 3]
    ∧ (after (exec (.imageEdge 0 0) (lined [0, 1, 2, 3, 4]))).engine.fifo.map FifoLine.line = [4]
    ∧ (after (exec (.imageEdge 0 0) (lined [0, 1, 2]))).engine.fetchPos = 4
    ∧ ((after (exec (.imageEdge 0 0) (lined [0, 1, 2]))).plate? 31).map (fun p => p.damage.map DamageRecord.cause)
      = some [.underrun] := by decide +kernel

/-- A fault in copy 1 of 2 returns the plate to LOADING; in copy 2 it is FAULTED. -/
theorem test_hyps_DrumFaults :
    (working .exposing 1 []).plate? 31 = some (plate .active []) ∧ (working .leadIn 1 []).engine.watchdog ≠ none
    ∧ ((after (exec .drumReadyFall (working .leadIn 1 []))).plate? 31).map Plate.state = some .loading
    ∧ ((after (exec .indexWatchdogExpiry (working .exposing 2 []))).plate? 31).map Plate.state = some .faulted
    ∧ ((after (exec (.index 0 0) (revolving .exposing 2 3 false))).plate? 31).map Plate.state = some .faulted
    ∧ (after (exec .drumReadyFall (working (.change .awaitFall) 1 []))).engine.state = .change .awaitRise
    ∧ (after (exec .drumReadyRise (working (.change .awaitRise) 1 []))).engine.state = .change .awaitIndex
    ∧ (after (exec .drumReadyFall (working .waitDrum 1 []))).engine.state = .waitDrum
    ∧ base.engine.watchdog = none ∧ (working .waitDrum 1 []).engine.state ≠ .leadIn := by decide +kernel

/-! ### Hypotheses met: the exposure monitor -/

/-- The monitor with a reference, a count of revolutions and a cursor, beams 0, 1 and 3 enabled, interval 16. -/
def gapped (r : Reference) (n : Nat) (cursor : Option (Fin 4)) (set : BitVec 4) : State :=
  (base.withMonitor { base.monitor with activity := .exposure, reference := r, revolutions := n, cursor := cursor }).withEngine
    { base.engine with active := { Setup.default with interval := 16, beams := set } }

/-- Gaps 15, 16, 17 and 18 of the manual's schedule, and no enabled beam. -/
theorem test_hyps_GapSchedule :
    (gapped (.valid 5000 16384) 14 (some 1) 0b1011).openGap.monitor.step = .beam 3
    ∧ (gapped (.valid 5000 16384) 15 (some 3) 0b1011).openGap.monitor.step = .ref
    ∧ (gapped .invalid 0 (some 3) 0b1011).openGap.monitor.step = .ref
    ∧ (gapped (.valid 5000 16384) 0 (some 3) 0b1011).openGap.monitor.step = .beam 0
    ∧ (gapped (.valid 5000 16384) 0 none 0).openGap.monitor.step = .none := by decide +kernel

/-- The monitor with a step of an activity, reference 5000 pulses in 16384 ticks. -/
def measuring (step : Step) (a : Activity) : State :=
  base.withMonitor { base.monitor with step := step, activity := a, reference := .valid 5000 16384, scanSet := 1 }

/-- 64 pulses are VALID and 63 are not, in an exposure and in a scan. -/
theorem test_hyps_RefStepEnd : (measuring .ref .exposure).monitor.step = .ref ∧ 64 ≤ (64 : BitVec 24).toNat
    ∧ (after (exec (.refStepEnd 64) (measuring .ref .exposure))).monitor.reference = .valid 64 0
    ∧ (after (exec (.refStepEnd 63) (measuring .ref .exposure))).monitor.reference = .invalid
    ∧ (after (exec (.refStepEnd 64) (measuring .ref .scanSingle))).monitor.step = .beam 0
    ∧ (after (exec (.refStepEnd 63) (measuring .ref .scanSingle))).monitor.activity = .idle := by decide +kernel

theorem test_hyps_BeamStepEnd : (measuring (.beam 2) .exposure).monitor.step = .beam 2
    ∧ (measuring (.beam 2) .exposure).monitor.reference = .valid 5000 16384
    ∧ (after (exec (.beamStepPulseEnd 0) (measuring (.beam 2) .exposure))).monitor.beamTable.b2
      = some ⟨some 65535, .high, .exposure⟩
    ∧ (after (exec (.beamStepPulseEnd 16384) (measuring (.beam 0) .scanSingle))).monitor.beamTable.b0
      = some ⟨some 4096, .ok, .scan⟩
    ∧ (after (exec (.beamStepGateTimeout 4999) (measuring (.beam 3) .exposure))).monitor.beamTable.b3
      = some ⟨none, .timeout, .exposure⟩ := by decide +kernel

theorem test_hyps_MonitorRead : (asking base 0x0B []).Heads ⟨0x0B, 0x21, []⟩ []
    ∧ (asking base 0x0B [0]).Heads ⟨0x0B, 0x21, [0]⟩ [] ∧ reply .monitorRead (asking base 0x0B [0]) = some (.badArg, []) :=
  ⟨asking_heads _ _ _ rfl rfl rfl, asking_heads _ _ _ rfl rfl rfl, by decide +kernel⟩

theorem test_hyps_MonitorMeasure : (asking base 0x0D [15, 1]).Heads ⟨0x0D, 0x21, [15, 1]⟩ []
    ∧ reply .monitorMeasure (asking base 0x0D [15, 1]) = some (.ok, [])
    ∧ (∀ b ∈ [[16, 0], [15, 2], [0, 0], [15]], reply .monitorMeasure (asking base 0x0D b) = some (.badArg, []))
    ∧ reply .monitorMeasure (asking (working .waitLead 1 []) 0x0D [1, 0]) = some (.busy, [])
    ∧ reply .monitorMeasure (asking (measuring .ref .scanContinuous) 0x0D [1, 0]) = some (.busy, []) :=
  ⟨asking_heads _ _ _ rfl rfl rfl, by decide +kernel, by decide +kernel, by decide +kernel, by decide +kernel⟩

theorem test_hyps_MonitorStop : (asking (measuring (.beam 3) .scanSingle) 0x0E []).Heads ⟨0x0E, 0x21, []⟩ []
    ∧ reply .monitorStop (asking (measuring (.beam 3) .scanSingle) 0x0E []) = some (.ok, [5])
    ∧ reply .monitorStop (asking (measuring .ref .scanContinuous) 0x0E []) = some (.ok, [1])
    ∧ reply .monitorStop (asking base 0x0E []) = some (.state, [])
    ∧ reply .monitorStop (asking (measuring .ref .scanContinuous) 0x0E [0]) = some (.badArg, [])
    ∧ reply .monitorStop (asking base 0x0E [0]) = some (.badArg, []) :=
  ⟨asking_heads _ _ _ rfl rfl rfl, by decide +kernel, by decide +kernel, by decide +kernel, by decide +kernel,
    by decide +kernel⟩

/-! ### Hypotheses met: damage, marks and stamps -/

/-- Pattern 31 loads and pattern 32 does not; an ACTIVE plate makes the part busy. -/
theorem test_hyps_StampLoad : (asking base 0x0F (31 :: List.replicate 512 1)).Heads ⟨0x0F, 0x21, 31 :: List.replicate 512 1⟩ []
    ∧ reply .stampLoad (asking base 0x0F (31 :: List.replicate 512 1)) = some (.ok, [])
    ∧ reply .stampLoad (asking base 0x0F (32 :: List.replicate 512 1)) = some (.badArg, [])
    ∧ reply .stampLoad (asking base 0x0F (31 :: List.replicate 511 1)) = some (.badArg, [])
    ∧ reply .stampLoad (asking (working .waitLead 1 []) 0x0F (31 :: List.replicate 512 1)) = some (.busy, []) :=
  ⟨asking_heads _ _ _ rfl rfl rfl, by decide +kernel, by decide +kernel, by decide +kernel, by decide +kernel⟩

/-- A damage record of plate 31. -/
def record : DamageRecord := .basic .underrun 1 0 0 3

/-- Plate 31 with `n` records. -/
def damaged (n : Nat) : Plate := { plate .active [] with damage := List.replicate n record }

/-- A report from record 48 of 64 carries 16; from record 64, none. -/
theorem test_hyps_PlateReport : (asking (tabled (damaged 64)) 0x10 [0, 31, 48]).Heads ⟨0x10, 0x21, [0, 31, 48]⟩ []
    ∧ (reply .plateReport (asking (tabled (damaged 64)) 0x10 [0, 31, 48])).map (fun r => r.2.length) = some (14 + 16 * 15)
    ∧ (reply .plateReport (asking (tabled (damaged 64)) 0x10 [0, 31, 64])).map (fun r => r.2.length) = some 14
    ∧ reply .plateReport (asking base 0x10 [0, 31, 0]) = some (.notFound, [])
    ∧ reply .plateReport (asking base 0x10 [0, 31]) = some (.badArg, []) :=
  ⟨asking_heads _ _ _ rfl rfl rfl, by decide +kernel, by decide +kernel, by decide +kernel, by decide +kernel⟩

/-- A band's first line, a line inside it and its last; a lane that is free, with a request due and not due, and a busy one. -/
theorem test_hyps_SignatureAndLane :
    256 % 256 = 0 ∧ (plate .active [band .exposed none, band .exposed none]).lastLine 0 = 255
    ∧ (plate .active [band .exposed none, band .exposed none]).lastLine 1 = 299
    ∧ ({ band .exposed none with expectedSig := some 1 } : Band).expectedSig = some 1
    ∧ base.marks.lane = none ∧ (base.withMarks ⟨[⟨0, 7, none⟩], none, none, none⟩).marks.queue = ⟨0, 7, none⟩ :: []
    ∧ (7 ≤ 4 * 1 + 3 ∧ 4 * 0 + 3 < 7)
    ∧ ((base.withMarks ⟨[⟨0, 7, none⟩], none, none, none⟩).laneStep 31 1).marks.lane = some ⟨0, 4⟩
    ∧ ((base.withMarks ⟨[⟨0, 7, none⟩], none, none, none⟩).laneStep 31 0).marks.lane = none
    ∧ ((base.withMarks ⟨[⟨0, 7, none⟩], some ⟨1, 0⟩, none, none⟩).laneStep 31 1).marks.lane = some ⟨1, 0⟩ := by decide +kernel

/-- The notice queue with `n` notices and the mark queue with `n` requests. -/
def notified (n : Nat) : State := base.withLink { base.link with notices := List.replicate n (.plateReady 31) }

/-- The 28th and the 32nd place, the 64th record, the 8th request, and a place behind an equal line. -/
theorem test_hyps_NoticesRecordsMarks :
    ((notified 27).post (.plateReady 31)).link.notices.length = 28 ∧ ((notified 28).post (.plateReady 31)).link.lost = 1
    ∧ ((notified 31).post (.drumFault 31 1 0 .watchdog true)).link.notices.length = 32
    ∧ ((notified 32).post (.drumFault 31 1 0 .watchdog true)).link.lost = 1
    ∧ (((tabled (damaged 63)).addRecord 31 record).plate? 31).map (fun p => p.damage.length) = some 64
    ∧ (((tabled (damaged 64)).addRecord 31 record).plate? 31).map Plate.overflow = some 1
    ∧ (({ Marks.reset with queue := [⟨0, 4, none⟩, ⟨1, 8, none⟩] } : Marks).request 2 4 none).queue
      = [⟨0, 4, none⟩] ++ ⟨2, 4, none⟩ :: [⟨1, 8, none⟩]
    ∧ ({ Marks.reset with queue := List.replicate 8 ⟨0, 0, none⟩ } : Marks).request 2 4 none
      = { Marks.reset with queue := List.replicate 8 ⟨0, 0, none⟩ } := by decide +kernel

/-! ### Hypotheses met, clause by clause: the ends of plates, segments and renders -/

/-- Plate 31 with an open segment whose DATA frame is being written, and a DEAD entry before it. -/
def assembled (p : Plate) : State :=
  ((tabled p).withSegs ⟨[entry .dead true, entry .assembling true], 34⟩).setIntake
    (.assembling { openSeg 3 with writing := some ([1], 0) })

/-- The abort of a plate the engine has not taken, with its open segment; of the plate taken, with an open BLIND episode. -/
theorem test_hyps_PlateAbort_ends :
    (assembled (plate .loading [])).openedOf (fun h => decide (h.plate = 31))
      = some { openSeg 3 with writing := some ([1], 0) }
    ∧ (assembled (plate .loading [])).openedOf (fun h => decide (h.plate = 32)) = none
    ∧ (after (exec .plateAbort (asking (assembled (plate .loading [])) 0x03 [0, 31]))).link.notices
      = [.segmentAbandoned 31 0 0 3 .interrupted]
    ∧ (working .exposing 1 []).engine.taken.map Taken.plate = some (plate .active []).id
    ∧ (assembled (plate .loading [])).engine.taken.map Taken.plate ≠ some (plate .loading []).id := by decide +kernel

/-- A released plate's render goes on without its link. -/
theorem test_hyps_PlateRelease_renderers :
    ((after (exec .plateRelease (asking ((tabled (plate .aborted [])).withDecoder (some (decodeOf 16 4))) 0x02
      [0, 31]))).decoder.map fun d => d.work.entry.linked) = some false := by decide +kernel

/-- Ring release at an empty queue, at a finished head and at a live one. -/
theorem test_hyps_SegmentAbandoned_release : base.segs.queue = []
    ∧ (queued none).segs.queue = entry .dead true :: [entry .queued true]
    ∧ (queued none).releaseRing.segs.queue = [entry .queued true]
    ∧ (queued none).releaseRing.releaseRing = (queued none).releaseRing := by decide +kernel

/-- The work of a segment of a seq of plate 31's band 0. -/
def workOf (seq : Nat) : Work := ⟨⟨{ header seq with sw := 3, sh := 4 }, true, 0, .rendering⟩, 5, 1024, 256⟩

/-- A decode and a screen in their fill, with the last burst of a line written. -/
def filling (line : Nat) : Decode := { decodeOf 16 4 with phase := .fill line, work := workOf 0 }
def fillingScreen (line : Nat) : Screen := ⟨workOf 0, .fill line, 0, none, .none⟩

theorem test_hyps_RenderStart_fill :
    (workOf 0).entry.header.seq = 0 ∧ (workOf 1).entry.header.seq ≠ 0 ∧ 1 ≤ (workOf 1).entry.header.h
    ∧ 1 ≤ (workOf 1).entry.header.declared
    ∧ ((filling 255).transfer.cells.length ≤ ([] : List MaskedByte).length ∧ 255 < 256)
    ∧ ((filling 256).lineCount < (workOf 0).entry.header.h ∧ (filling 256).repeatLeft = 0 ∧ (filling 256).ahead = []
      ∧ (filling 256).readPos < (workOf 0).entry.header.declared)
    ∧ ((fillingScreen 256).lineCount < (workOf 0).entry.header.h ∧ (fillingScreen 256).row = none
      ∧ 1 ≤ (workOf 0).entry.header.sw) := by decide +kernel

/-- A decode that has met a code error at line 2. -/
def failed : Decode := { ended true with error := some 2 }

theorem test_hyps_RenderEnd_records :
    ((plate .loading [band .filling (some 5), band .blank none]).bands[0]? = some (band .filling (some 5))
      ∧ (ended true).work.entry.linked = true ∧ (ended false).work.entry.linked = false)
    ∧ (ended true).error = none ∧ failed.error = some 2
    ∧ ((((rendering .loading).stepDecoder (ended true) failed).plate? 31).map fun p => p.damage.map DamageRecord.cause)
      = some [.code]
    ∧ (((rendering .aborted).stepDecoder (ended true) failed).plate? 31).map Plate.damage = some [] := by decide +kernel

/-- A decode at each of its moves. -/
theorem test_hyps_LineCode_moves :
    (decodeOf 16 4).move = none ∧ ({ decodeOf 16 4 with lineCount := 4, readPos := 17 } : Decode).move.isSome = true
    ∧ ({ decodeOf 16 4 with lineCount := 4 } : Decode).move.bind Decode.error = some 3
    ∧ ({ decodeOf 16 4 with repeatLeft := 1 } : Decode).move.map Decode.lineCount = some 1
    ∧ ({ decodeOf 16 4 with ahead := [0x81] } : Decode).move.map Decode.readPos = some 1
    ∧ ({ decodeOf 16 4 with readPos := 17 } : Decode).move.bind Decode.error = some 0
    ∧ ({ decodeOf 16 4 with phase := .whiten 3 } : Decode).move.map Decode.phase = some (.whiten 4)
    ∧ ({ decodeOf 16 4 with phase := .whiten 4 } : Decode).move.map Decode.phase = some .ended
    ∧ (ended true).move = none
    ∧ (decodeOf 16 4).fail.phase = .whiten 0 := by decide +kernel

/-! ### Hypotheses met, clause by clause: plate memory -/

/-- A screen reading row 0, with a byte of 3, and one that has laid a pixel of 16. -/
def rowed : Screen := ⟨workOf 1, .readRow 0 [7], 0, none, .none⟩
def laid : Screen := ⟨workOf 1, .pixels [true], 0, some (0, [1, 2, 3]), .none⟩

/-- Each requester with a burst waiting, and without one. -/
theorem test_hyps_BurstGrant_shapes :
    ((reading .join).waiting .fetch).isSome = true
    ∧ (0 < [(0x80 : Byte), 0x03].length ∧ (taking .selected).waiting .intake = none)
    ∧ contending.waiting .decoder = some ⟨.decoder, 167772160, .read 17, false⟩
    ∧ ((base.withDecoder (some { decodeOf 16 4 with transfer := (workOf 0).fillTransfer 0 })).waiting .decoder).map
        (fun b => b.op.length) = some 256
    ∧ (base.withDecoder (some (ended true))).waiting .decoder = none
    ∧ (base.withScreener (some rowed)).waiting .screener = some ⟨.screener, 167772161, .read 2, false⟩
    ∧ ((screened (.ready (params 256)) 1).withScreener (some laid)).waiting .screener
      = some ⟨.screener, 234881024 + 2 * 9, .read 2, false⟩
    ∧ (base.withScreener (some (fillingScreen 3))).waiting .screener = none
    ∧ (base.withLink { base.link with job := some ⟨7, 2, [0, 1], 0⟩ }).waiting .screenTable
      = some ⟨.screenTable, 234881024 + 32768 * 7 + 4, .write [⟨0, 0⟩, ⟨0, 1⟩], false⟩
    ∧ (base.withLink { base.link with job := some ⟨7, 2, [0, 1], 2⟩ }).waiting .screenTable = none := by decide +kernel

/-- A payload of 300 bytes that begins 100 bytes before the ring's end takes three bursts: up to the ring's end, up to 256 bytes
from the payload's start, and the rest (R165). -/
def wrapping (written : Nat) : State :=
  taking (.assembling
    { openSeg 0 with ringOffset := 67108864 - 100, writing := some (List.replicate 300 0, written) })

theorem test_wrapped_payload_bursts :
    [0, 100, 256, 300].map (fun n => ((wrapping n).waiting .intake).map fun b => (b.addr, b.op.length))
      = [some (234880924, 100), some (167772160, 156), some (167772316, 44), none] := by decide +kernel

/-- Two pixels from pixel 8 on, in the last line of a band of 44 lines and one line past it. -/
theorem test_hyps_BurstDone_paint :
    (({ workOf 0 with bandHeight := 44 } : Work).lineTransfer .replace 43 [true, false]).cells = [⟨0x3F, 0x80⟩]
    ∧ (({ workOf 0 with bandHeight := 44 } : Work).lineTransfer .overprint 43 [true, false]).cells = [⟨0xFF, 0x80⟩]
    ∧ (({ workOf 0 with bandHeight := 44 } : Work).lineTransfer .replace 44 [true, false]).cells = [] := by decide +kernel

/-- The arbiter BUSY with a requester's burst at address 0. -/
def serving (s : State) (who : Requester) (op : BurstOp) (stale : Bool) : State := s.withArbiter ⟨some ⟨who, 0, op, stale⟩, none⟩

/-- Each requester served, in a read and in a write; the last line of a band in the final copy and in an earlier one, and a
line of a copy the engine does not work on. -/
theorem test_hyps_BurstServesRequester_each :
    (after (exec .burstDone (serving (reading .join) .fetch (.read 1) false))).engine.fifo.length = 1
    ∧ (after (exec .burstDone (serving contending .intake (.write [.plain 1]) true))).feed.intake = contending.feed.intake
    ∧ (after (exec .burstDone (serving (contending.withMemory ⟨[(0, 0x81)], 0⟩) .decoder (.read 1) false))).decoder.map
        Decode.readPos = some 1
    ∧ ((after (exec .burstDone (serving (base.withScreener (some rowed)) .screener (.read 2) false))).screener.bind
        Screen.row).isSome = true
    ∧ ((working .exposing 2 [band .exposing (some 3), band .blank none]).passLine 31 2 255).pool.free.getLast? = some 3
    ∧ ((working .exposing 1 [band .exposing (some 3), band .blank none]).passLine 31 1 255).band? 31 0
      = some (band .ready (some 3))
    ∧ ((working .exposing 1 []).passLine 31 1 299).engine.running = false
    ∧ (working .exposing 1 []).engine.taken ≠ some ⟨31, 2⟩
    ∧ (laid.burstDone (some (params 256)) (.read 2) [0, 1]).phase = .pixels [true, true] := by decide +kernel

/-! ### Hypotheses met, clause by clause: the exposure -/

/-- Damage records of a cause, copy 1, band 0. -/
def made (c : Cause) : DamageRecord := .basic c 1 0 8 299

/-- Plate 31 ACTIVE with records, and a setup that gives every cause pattern 4. -/
def marked (st : EngineState) (bands : List Band) (records : List DamageRecord) : State :=
  ((working st 1 []).withTable ⟨[{ plate .active bands with damage := records }], [31]⟩).withEngine
    { (working st 1 []).engine with active := { Setup.default with patterns := List.replicate 8 (some 4) } }

/-- The lead settled with a DRUM record of the copy, with one of another copy before it, and with none. -/
theorem test_hyps_PlateExpose_lead :
    ([made .code, made .drum] = [made .code] ++ made .drum :: [] ∧ (made .drum).cause = .drum ∧ (made .code).cause ≠ .drum)
    ∧ (marked .waitLead [band .blank none] [made .code, made .drum]).settleLead.marks.queue = [⟨4, 8, some 1⟩]
    ∧ (marked .waitLead [band .blank none] [made .code]).settleLead.marks.queue = []
    ∧ (marked .waitLead [band .empty none] []).settleLead = marked .waitLead [band .empty none] []
    ∧ base.settleLead = base := by decide +kernel

/-- The band decision in each band state, with a record to link the mark to and without one. -/
theorem test_hyps_FetchLineBegin_decision :
    ((marked .exposing [{ band .ready (some 2) with damaged := true }] [made .drum, made .content]).decideBand 0).marks.queue
      = [⟨4, 0, some 1⟩]
    ∧ ((marked .exposing [{ band .ready (some 2) with damaged := true }] []).decideBand 0).marks.queue = [⟨4, 0, none⟩]
    ∧ ((marked .exposing [band .ready (some 2)] []).decideBand 0).marks.queue = []
    ∧ ((marked .exposing [band .starved none] [made .starved]).decideBand 0).marks.queue = [⟨4, 0, some 0⟩]
    ∧ ((marked .exposing [band .starved none] []).decideBand 0).marks.queue = [⟨4, 0, none⟩]
    ∧ ((marked .exposing [band .empty none] []).decideBand 0).link.notices.length = 1
    ∧ (((marked .exposing [band .filling (some 2)] []).withSegs ⟨[entry .queued true], 17⟩).decideBand 0).link.notices.length
      = 2
    ∧ (marked .exposing [band .exposed none] []).decideBand 0 = marked .exposing [band .exposed none] [] := by decide +kernel

/-- The episodes of beam 2 and of BLIND open, linked to records 0 and 1. -/
def open2 (s : State) : State :=
  s.withMonitor { s.monitor with power := ⟨.closed, .closed, .opened (some 0), .closed⟩, blind := .opened (some 1) }

/-- A drum fault with both kinds of episode open, and a record linked to neither. -/
theorem test_hyps_DrumFaults_episodes :
    ((open2 (marked .exposing [] [made .power, made .blind, made .code])).closeEpisodes.plate? 31).map
        (fun p => p.damage.map DamageRecord.opened)
      = some [some false, some false, none]
    ∧ (open2 base).monitor.power.get 2 = .opened (some 0) ∧ (open2 base).monitor.blind = .opened (some 1)
    ∧ ((after (exec .drumReadyFall (open2 (marked .exposing [] [made .power, made .blind])))).plate? 31).map
        (fun p => p.damage.map DamageRecord.cause) = some [.power, .blind, .drum] := by decide +kernel

/-- A read of a dropped line outlasting its copy: the band still EXPOSING ends with the copy, the read is discarded. -/
theorem test_hyps_IndexTaken_copyEnd :
    let s := (revolving .exposing 1 75 true).withTable ⟨[plate .active [band .exposing (some 3), band .blank none]], [31]⟩
    (after (exec (.index 0 0) s)).band? 31 0 = some (band .ready (some 3))
    ∧ (after (exec (.index 0 0) s)).link.notices = [.copyDone 31 1 2 0 0]
    ∧ s.engine.taken = some ⟨31, 1⟩ ∧ (300 + 3) / 4 ≤ s.engine.swath
    ∧ (after (exec (.index 9 8) ((working .leadIn 1 []).withMonitor { base.monitor with step := .ref, activity := .exposure
        }))).monitor.reference = .invalid := by decide +kernel

/-- IMAGE EDGE in LEAD_IN with the reference step running, and in EXPOSING with a BEAM step running. -/
theorem test_hyps_ImageEdge_cut :
    (after (exec (.imageEdge 9 8) ((working .leadIn 1 []).withMonitor { base.monitor with
      step := .ref, activity := .exposure }))).monitor.refTable = some ⟨8, 0, .timeout, .exposure⟩
    ∧ (after (exec (.imageEdge 9 8) ((lined [0, 1, 2, 3]).withMonitor { base.monitor with
      step := .beam 1, activity := .exposure, reference := .valid 64 1024 }))).monitor.beamTable.b1
        = some ⟨none, .timeout, .exposure⟩
    ∧ (after (exec (.imageEdge 0 0) (lined [0, 1, 2, 3]))).pins.laser = some ⟨0, List.replicate 4 (List.replicate 4 0)⟩
    ∧ (after (exec (.imageEdge 0 0) (lined [4]))).engine.fifo.map FifoLine.line = [4] := by decide +kernel

/-! ### Hypotheses met, clause by clause: the exposure monitor, damage and marks -/

/-- The monitor of an exposure in a step, at swath 3, with a BLIND and a POWER episode of beam 2 open or closed. -/
def judging (step : Step) (link : Episode) : State :=
  (marked .exposing [] [made .blind]).withMonitor { base.monitor with
    step := step, activity := .exposure, reference := .valid 64 1024, stepSwath := 3, blind := link
    power := ⟨.closed, .closed, link, .closed⟩ }

/-- The BLIND episode opens, is extended, and closes; a scan's next beam, its next pass, its end. -/
theorem test_hyps_RefStepEnd_episodes :
    (after (exec (.refStepEnd 63) (judging .ref .closed))).monitor.blind = .opened (some 1)
    ∧ ((after (exec (.refStepEnd 63) (judging .ref (.opened (some 0))))).plate? 31).map
        (fun p => p.damage.map DamageRecord.last) = some [299]
    ∧ (after (exec (.refStepEnd 64) (judging .ref (.opened (some 0))))).monitor.blind = .closed
    ∧ (after (exec (.refStepEnd 64) (judging .ref .closed))).monitor.blind = .closed
    ∧ (measuring .ref .scanSingle).monitor.scanSet.getLsbD 0 = true
    ∧ ((measuring .none .scanContinuous).withMonitor { (measuring .none .scanContinuous).monitor with
        cursor := some 0 }).scanNext.monitor.step = .ref
    ∧ ((measuring .none .scanSingle).withMonitor { (measuring .none .scanSingle).monitor with
        cursor := some 0 }).scanNext.monitor.activity = .idle := by decide +kernel

/-- Beam 2's POWER episode opens, is extended, and closes; a scan's last reading and one that is not. -/
theorem test_hyps_BeamStepEnd_episodes :
    (after (exec (.beamStepGateTimeout 5) (judging (.beam 2) .closed))).monitor.power.b2 = .opened (some 1)
    ∧ ((after (exec (.beamStepGateTimeout 5) (judging (.beam 2) (.opened (some 0))))).plate? 31).map
        (fun p => p.damage.map DamageRecord.reading) = some [some .timeout]
    ∧ (after (exec (.beamStepPulseEnd 1024) (judging (.beam 2) (.opened (some 0))))).monitor.power.b2 = .closed
    ∧ (after (exec (.beamStepPulseEnd 1024) (judging (.beam 2) .closed))).monitor.power.b2 = .closed
    ∧ (measuring (.beam 0) .scanSingle).monitor.lastReading 0 = true
    ∧ (measuring (.beam 0) .scanContinuous).monitor.lastReading 0 = false := by decide +kernel

/-- An underrun that joins the run and one that begins a new run; the mark laid on a line at its pixel; a lane freed. -/
theorem test_hyps_SignatureAndLane_swath :
    let s := (marked .exposing [] [made .underrun]).withMarks ⟨[], some ⟨0, 4⟩, some ⟨0, 7, some 0⟩, none⟩
    let p := { plate .active [] with damage := [made .underrun] }
    (s.noteUnderrun p 1 2).marks.run = some ⟨0, 11, some 0⟩ ∧ (s.noteUnderrun p 1 3).marks.run = some ⟨0, 15, some 1⟩
    ∧ s.plate? p.id = some p
    ∧ ((s.withStamps [List.replicate 64 (1 <<< 63)]).inked p 4 [0, 0]) = [0x80, 0]
    ∧ (s.handSwath ⟨31, 1⟩ p 16 false []).marks.lane = none
    ∧ (s.handSwath ⟨31, 1⟩ p 15 false []).marks.lane = some ⟨0, 4⟩ := by decide +kernel

/-- A cause with a pattern and one without; a record stored and one counted; a record extended. -/
theorem test_hyps_NoticesRecordsMarks_pattern :
    (marked .exposing [] []).engine.active.patterns[7]? = some (some 4) ∧ base.engine.active.patterns[0]? = some none
    ∧ ((marked .exposing [] []).addMarked 31 (made .drum) 4).marks.queue = [⟨4, 4, some 0⟩]
    ∧ (((marked .exposing [] [made .code]).extendRecord 31 (some 0) 400 id).plate? 31).map
        (fun p => p.damage.map DamageRecord.last) = some [299] := by decide +kernel

/-- FEED HOLD asserted with one QUEUED entry, of a plate in the queue whose band already expects a later seq. -/
def stuck : State :=
  (((tabled (plate .loading [{ band .filling none with nextSeq := 1 }])).withSegs ⟨[entry .queued true], 17⟩).withFeed
    { base.feed with hold := true })

/-- The stall told once; not with the notice disarmed, FEED HOLD released, a renderer busy, or nothing QUEUED; and the entry is
eligible where its band waits for it. -/
theorem test_hyps_FeedHoldMarks_stall :
    (∀ x ∈ stuck.segs.queue, stuck.eligible x = false)
    ∧ stuck.testStall.link.notices = [.intakeStall 1 67108847 160 31 0 0 1] ∧ stuck.testStall.testStall = stuck.testStall
    ∧ (stuck.withFeed { stuck.feed with hold := false }).testStall = stuck.withFeed { stuck.feed with hold := false }
    ∧ (stuck.withDecoder (some (decodeOf 16 4))).testStall.link.notices = []
    ∧ (stuck.withSegs ⟨[entry .dead true], 17⟩).testStall.link.notices = []
    ∧ (stuck.withTable ⟨[plate .loading [band .empty none]], [31]⟩).eligible (entry .queued true) = true := by decide +kernel

/-- A scan in a BEAM step as an authorised plate is taken, and no scan. -/
theorem test_hyps_PlateExpose_scan :
    let s := (tabled { plate .loading [band .empty none] with authorised := true }).withMonitor
      { base.monitor with activity := .scanContinuous, step := .beam 2 }
    s.takeHead.engine.state = .waitLead ∧ s.takeHead.link.notices = [.measureAbandoned true (some 2)]
    ∧ s.takeHead.monitor.activity = .idle ∧ s.takeHead.monitor.step = .none
    ∧ (s.withMonitor base.monitor).takeHead.link.notices = [] := by decide +kernel

/-- The abort of the untaken head with an open segment, an authorised plate behind it and a scan running. -/
theorem test_abort_notices :
    let p := plate .loading [band .empty none]
    (after (exec .plateAbort (asking (((assembled p).withTable ⟨[p, { p with id := 32, authorised := true }], [31, 32]⟩).withMonitor
      { base.monitor with activity := .scanSingle, step := .beam 1 }) 0x03 [0, 31]))).link.notices
      = [.segmentAbandoned 31 0 0 3 .interrupted, .measureAbandoned true (some 1)] := by decide +kernel

/-- An aborted record keeps its overflow count. -/
theorem test_abort_keeps_overflow :
    ((after (exec .plateAbort (asking (tabled { plate .loading [] with overflow := 7 }) 0x03 [0, 31]))).plate? 31).map
      Plate.overflow = some 7 := by decide +kernel

/-- The outputs in a BEAM step, while a swath is exposed, and at reset; a message on link transmit. -/
theorem test_outputs :
    (measuring (.beam 2) .scanSingle).beamEnable = 4 ∧ (measuring (.beam 2) .scanSingle).calibrationFiring = true
    ∧ (base.withPins { base.pins with laser := some ⟨0, [[1], [2], [3], [4]]⟩ }).beamEnable = 15
    ∧ (base.withPins { base.pins with laser := some ⟨0, [[1], [2], [3], [4]]⟩ }).beamData 3 = some [4]
    ∧ base.beamEnable = 0 ∧ base.calibrationFiring = false ∧ base.beamData 0 = none ∧ base.linkTransmit = none
    ∧ ((base.withLink { base.link with sending := some ⟨0x80, 0x21, [0, 1]⟩ }).linkTransmit.map fun b => b.take 7)
      = some [0xA5, 0, 2, 0x80, 0x21, 0, 1] := by decide +kernel

/-! ### Hypotheses met: frames and invariants -/

/-- A reply being sent changes no store. -/
theorem test_hyps_OnlyOwnersChange : ∃ t, exec .transmitReply (telling [⟨some 0, .ok, []⟩] none) = .next t
    ∧ t.link.replies = [] := ⟨_, rfl, by decide +kernel⟩

/-- A step from a state that keeps the laws and is not the reset state: one plate LOADING, one byte of memory written. -/
theorem test_hyps_MemoryStaysCanonical :
    ((busy 268435455 (.write [.plain 7])).withMemory ⟨[(5, 1)], 0⟩).memory.wf = true
    ∧ ∃ t, step (((busy 268435455 (.write [.plain 7])).withMemory ⟨[(5, 1)], 0⟩).withPending [.burstDone]) = .next t
      ∧ t.memory.cells = [(5, 1), (268435455, 7)] := ⟨by decide, _, rfl, by decide +kernel⟩

/-- Plate 31 under exposure at swath 1, its band 0 EXPOSING from buffer 0, its band 1 BLANK. -/
def sound : State :=
  ((working .exposing 1 [⟨1, 1, .exposing, some 0, false, false, none, none⟩, ⟨0, 0, .blank, none, false, false, none, none⟩]).withPool
    ⟨(List.range 160).tail⟩).withEngine
      { (working .exposing 1 []).engine with fetchPos := 8, swath := 1, fifo := [⟨4, []⟩] }

/-- The plate of `sound`. -/
def soundPlate : Plate := plate .active
  [⟨1, 1, .exposing, some 0, false, false, none, none⟩, ⟨0, 0, .blank, none, false, false, none, none⟩]

theorem sound_plate (id : Nat) (p : Plate) (h : sound.plate? id = some p) : p = soundPlate := by
  have := List.mem_of_find?_eq_some h
  exact List.mem_singleton.mp this

theorem sound_band (id i : Nat) (p : Plate) (b : Band) (h : sound.plate? id = some p) (hb : p.bands[i]? = some b) :
    i = 0 ∧ b = ⟨1, 1, .exposing, some 0, false, false, none, none⟩
      ∨ i = 1 ∧ b = ⟨0, 0, .blank, none, false, false, none, none⟩ := by
  rw [sound_plate id p h] at hb
  match i, hb with
  | 0, hb => exact .inl ⟨rfl, by simpa [soundPlate, plate] using hb.symm⟩
  | 1, hb => exact .inr ⟨rfl, by simpa [soundPlate, plate] using hb.symm⟩
  | i + 2, hb => simp [soundPlate, plate] at hb

theorem sound_queueLaw : sound.QueueLaw := by
  refine ⟨by decide +kernel, by decide +kernel, ?_, by decide +kernel, ?_, by decide +kernel⟩
  · intro id
    show id ∈ [31] ↔ ∃ p ∈ [soundPlate], p.id = id ∧ p.live = true
    constructor
    · exact fun h => ⟨_, List.mem_singleton.mpr rfl, (List.mem_singleton.mp h).symm, rfl⟩
    · rintro ⟨p, hp, rfl, -⟩
      rw [List.mem_singleton.mp hp]
      exact List.mem_singleton.mpr rfl
  · intro t ht
    have : t = ⟨31, 1⟩ := by simpa [sound, working, State.withEngine] using ht.symm
    subst this
    exact ⟨_, List.mem_singleton.mpr rfl, rfl, rfl⟩

theorem sound_segmentLaw : sound.SegmentLaw := by
  refine ⟨rfl, rfl, rfl, List.nodup_nil, rfl, ?_⟩
  intro n x h
  have : x = ⟨.free, 0⟩ := List.eq_of_mem_replicate (List.mem_of_getElem? h)
  subst this
  exact ⟨rfl, nofun⟩

theorem sound_bufferLaw : sound.BufferLaw := by
  intro n
  by_cases h : n < 160
  · rw [if_pos h]
    have : ∀ n : Fin 160, sound.placesOf n.val = 1 := by decide +kernel
    exact this ⟨n, h⟩
  · rw [if_neg h]
    show (List.range 160).tail.count n + [0].count n + 0 = 0
    rw [List.count_eq_zero_of_not_mem fun hm => h (List.mem_range.mp (List.mem_of_mem_tail hm)),
      List.count_eq_zero_of_not_mem fun hm => h (by rw [List.mem_singleton.mp hm]; omega)]

theorem sound_fetchLaw : sound.FetchLaw := by
  refine ⟨fun t ht => ?_, nofun⟩
  have : t = ⟨31, 1⟩ := by simpa [sound, working, State.withEngine] using ht.symm
  subst this
  refine ⟨nofun, by decide, by decide, soundPlate, rfl, rfl, fun i b hb _ => ?_⟩
  rcases sound_band 31 i _ b rfl hb with ⟨-, rfl⟩ | ⟨-, rfl⟩ <;> decide

theorem sound_sound : sound.Sound := by
  refine ⟨sound_queueLaw, sound_segmentLaw, fun id p h => ⟨by rw [sound_plate id p h]; rfl, fun i b hb => ?_⟩,
    ⟨nofun, fun id p i b h hb hr => ?_, List.Pairwise.nil, nofun⟩, sound_bufferLaw, ?_, sound_fetchLaw⟩
  · rcases sound_band id i p b h hb with ⟨-, rfl⟩ | ⟨-, rfl⟩ <;> unfold Band.Shaped <;>
      (rw [sound_plate id p h]; decide)
  · rcases sound_band id i p b h hb with ⟨-, rfl⟩ | ⟨-, rfl⟩ <;> cases hr
  · intro before id after hq _
    have : before = [] := by
      match before, hq with
      | [], _ => rfl
      | a :: r, hq => simp [sound, working, tabled, plate, Plate.live, State.withEngine, State.withPool, State.withTable] at hq
    subst this
    exact Nat.zero_le _
theorem test_hyps_BoundsKept : (hearing 4 8).link.Bounded ∧ (queued none).segs.RingLaw
    ∧ Marks.Ordered ⟨[⟨0, 4, none⟩, ⟨1, 4, none⟩], none, none, none⟩ ∧ (reading .join).engine.FifoLaw
    ∧ sound.SegmentLaw ∧ (∃ t, step ((hearing 4 8).withPending [.messageGap]) = .next t ∧ t.link.errors = 1) := by
  refine ⟨?_, ?_, ?_, ?_, sound_segmentLaw, _, rfl, by decide +kernel⟩
  · unfold Link.Bounded; decide
  · unfold Segments.RingLaw; decide
  · unfold Marks.Ordered; decide
  · unfold Engine.FifoLaw; decide

theorem test_hyps_QueueLawKept : sound.QueueLaw ∧ sound.Sound
    ∧ ∃ t, step (sound.withPending [.drumReadyFall]) = .next t ∧ t.engine.state = .idle :=
  ⟨sound_queueLaw, sound_sound, _, rfl, by decide +kernel⟩

end Sys2Proof.Tests
end

/-! The need of a plate (R48) and the grant test (R49). -/

namespace Sys2Proof.Machine

/-! ### The need of a plate -/

/-- The four tests of a band's need (R48), as propositions. -/
theorem needs_iff (b : Band) :
    b.needs = true ↔ b.expected ≠ 0 ∧ b.buffer = none ∧ b.state ≠ .exposed ∧ b.state ≠ .starved := by
  simp [Band.needs, Nat.pos_iff_ne_zero, and_assoc]

theorem need_eq_countP (p : Plate) : p.need = p.bands.countP fun b =>
    decide (b.expected ≠ 0 ∧ b.buffer = none ∧ b.state ≠ .exposed ∧ b.state ≠ .starved) :=
  calc p.need = p.bands.countP Band.needs := List.countP_eq_length_filter.symm
    _ = _ := List.countP_congr fun b _ => (needs_iff b).trans decide_eq_true_iff.symm

/-! ### The grant test -/

/-- The grant test looks at the queue up to a plate's first place: the plates ahead of it. -/
theorem takeWhile_ne_eq_before {before : List Nat} {id : Nat} (after : List Nat) (hnew : id ∉ before) :
    ((before ++ id :: after).takeWhile fun q => !decide (q = id)) = before := by
  have hbefore : ∀ q ∈ before, (!decide (q = id)) = true := fun q hq => by
    have : q ≠ id := fun h => hnew (h ▸ hq)
    simpa using this
  rw [List.takeWhile_append_of_pos hbefore, List.takeWhile_cons_of_neg (by simp), List.append_nil]

theorem needSum_nil (s : State) : s.needSum [] = 0 := rfl

/-- A plate outside the queue is given no buffer. -/
theorem grantable_of_not_mem {s : State} {id : Nat} (h : id ∉ s.table.queue) : s.grantable id = false := by
  simp [State.grantable, h]

/-- The grant test of a queued plate is about the plates ahead of it alone. -/
theorem grantable_iff {s : State} {id : Nat} {before after : List Nat} (hq : s.table.queue = before ++ id :: after)
    (hnew : id ∉ before) : s.grantable id = true ↔ s.needSum before + 1 ≤ s.pool.free.length := by
  have hmem : id ∈ s.table.queue := by simp [hq]
  have hahead : (s.table.queue.takeWhile fun q => !decide (q = id)) = before := by
    rw [hq, takeWhile_ne_eq_before after hnew]
  rw [State.grantable, hahead, Nat.add_comm 1]
  simp [hmem]

/-- At the head nothing is ahead, so one free buffer is enough. -/
theorem grantable_head_iff {s : State} {id : Nat} {after : List Nat} (hq : s.table.queue = id :: after) :
    s.grantable id = true ↔ 1 ≤ s.pool.free.length := by
  simpa only [needSum_nil, Nat.zero_add] using grantable_iff (before := []) hq List.not_mem_nil

/-- Settles O15: the need counts the bands of R48, and the grant test compares the free buffers with the need ahead. -/
theorem grantTest : Obligations.GrantTest := by
  refine ⟨need_eq_countP, fun s id => ⟨grantable_of_not_mem, fun before after hq hnew => ⟨?_, grantable_iff hq hnew⟩⟩⟩
  rintro rfl
  exact grantable_head_iff hq

end Sys2Proof.Machine

/-! The screening law (R95): the source sample (R90), the corrected tone (R91), the cell (R93) and the ink (R94). -/

namespace Sys2Proof.Machine

/-! ### The source sample -/

/-- The pixel's centre lies in the area of the sample chosen (R90): the quotient's two bounds, cleared of the division. -/
theorem sourceIndex_spans_centre {x w : Nat} (sw : Nat) (hx : x < w) :
    sourceIndex x w sw * (2 * w) ≤ (2 * x + 1) * sw ∧ (2 * x + 1) * sw < (sourceIndex x w sw + 1) * (2 * w) :=
  ⟨Nat.div_mul_le_self _ _, Nat.lt_mul_of_div_lt (Nat.lt_succ_self _) (by omega)⟩

/-- As `2x + 1 < 2w`, the sample is one of the row's `sw`. -/
theorem sourceIndex_lt {x w sw : Nat} (hx : x < w) (hsw : 0 < sw) : sourceIndex x w sw < sw := by
  have hcentre : (2 * x + 1) * sw < 2 * w * sw := Nat.mul_lt_mul_of_pos_right (by omega) hsw
  exact Nat.div_lt_of_lt_mul hcentre

/-! ### The corrected tone -/

theorem correctTone_eq (curve : List Nat) (v : Nat) :
    correctTone curve v = (curve.getD (v / 16) 0 : Nat)
      + (((curve.getD (v / 16 + 1) 0 : Nat) - (curve.getD (v / 16) 0 : Nat)) * ((v % 16 : Nat) : Int) + 8) / 16 := rfl

/-- Interpolation upwards adds 0 to `d` (R91). -/
theorem interpolation_of_nonneg {d : Int} {f : Nat} (hd : 0 ≤ d) (hf : f < 16) :
    0 ≤ (d * f + 8) / 16 ∧ (d * f + 8) / 16 ≤ d := by
  have hlow : 0 ≤ d * f := Int.mul_nonneg hd (by omega)
  have hhigh : d * f ≤ d * 15 := Int.mul_le_mul_of_nonneg_left (by omega) hd
  omega

/-- Interpolation downwards adds `d` to 0 (R91): the rounding by 8 is made up for by `f` stopping at 15. -/
theorem interpolation_of_neg {d : Int} {f : Nat} (hd : d < 0) (hf : f < 16) :
    d ≤ (d * f + 8) / 16 ∧ (d * f + 8) / 16 ≤ 0 := by
  have hlow : d * 15 ≤ d * f := Int.mul_le_mul_of_nonpos_left hd.le (by omega)
  have hhigh : d * f ≤ 0 := Int.mul_nonpos_of_nonpos_of_nonneg hd.le (by omega)
  omega

/-- The corrected tone lies between the two curve points around the tone (R91), whatever the curve. -/
theorem correctTone_mem_Icc (curve : List Nat) (v : Nat) :
    correctTone curve v ∈ Set.Icc
      (min ((curve.getD (v / 16) 0 : Nat) : Int) (curve.getD (v / 16 + 1) 0 : Nat))
      (max ((curve.getD (v / 16) 0 : Nat) : Int) (curve.getD (v / 16 + 1) 0 : Nat)) := by
  have hf : v % 16 < 16 := Nat.mod_lt _ (by decide)
  rw [correctTone_eq, Set.mem_Icc]
  generalize ((curve.getD (v / 16) 0 : Nat) : Int) = c₀
  generalize ((curve.getD (v / 16 + 1) 0 : Nat) : Int) = c₁
  rcases lt_or_ge (c₁ - c₀) 0 with hdown | hup
  · have := interpolation_of_neg hdown hf
    omega
  · have := interpolation_of_nonneg hup hf
    omega

/-- R91's floor, spelled as the division that rounds toward minus infinity. -/
theorem correctTone_eq_fdiv (curve : List Nat) (v : Nat) :
    correctTone curve v = (curve.getD (v / 16) 0 : Nat)
      + Int.fdiv (((curve.getD (v / 16 + 1) 0 : Nat) - (curve.getD (v / 16) 0 : Nat)) * ((v % 16 : Nat) : Int) + 8) 16 := by
  rw [Int.fdiv_eq_ediv_of_nonneg _ (by decide), correctTone_eq]

/-- A bound on the points of a curve bounds every place read from it. -/
theorem getD_le_of_forall_mem {curve : List Nat} {m : Nat} (hcurve : ∀ c ∈ curve, c ≤ m) (i : Nat) :
    curve.getD i 0 ≤ m := by
  rcases Nat.lt_or_ge i curve.length with hi | hi
  · rw [List.getD_eq_getElem _ _ hi]
    exact hcurve _ (List.getElem_mem hi)
  · rw [List.getD_eq_default _ _ hi]
    exact Nat.zero_le m

/-- Between curve points of 0 to `m` the corrected tone is 0 to `m`. -/
theorem correctTone_range {curve : List Nat} {m : Nat} (hcurve : ∀ c ∈ curve, c ≤ m) (v : Nat) :
    0 ≤ correctTone curve v ∧ correctTone curve v ≤ m := by
  obtain ⟨hlow, hhigh⟩ := correctTone_mem_Icc curve v
  have hpoint := getD_le_of_forall_mem hcurve (v / 16)
  have hnext := getD_le_of_forall_mem hcurve (v / 16 + 1)
  omega

/-! ### The cell -/

/-- R93's floor and reduction, spelled as the operations that round toward minus infinity. -/
theorem cellCoord_eq_fmod (x y : Nat) (a b : Int) {cell : Nat} (hcell : 0 < cell) :
    (cellCoord x y a b cell : Int) = Int.fmod (Int.fdiv ((x : Int) * a + (y : Int) * b) 65536) (cell : Int) := by
  rw [Int.fdiv_eq_ediv_of_nonneg _ (by decide), Int.fmod_eq_emod_of_nonneg _ (Int.natCast_nonneg cell), cellCoord,
    Int.toNat_of_nonneg (Int.emod_nonneg _ (by omega))]

theorem cellCoord_lt (x y : Nat) (a b : Int) {cell : Nat} (hcell : 0 < cell) : cellCoord x y a b cell < cell := by
  have hreduced := Int.fmod_lt_of_pos (Int.fdiv ((x : Int) * a + (y : Int) * b) 65536) (Int.natCast_pos.2 hcell)
  rw [← cellCoord_eq_fmod x y a b hcell] at hreduced
  exact Int.ofNat_lt.1 hreduced

/-! ### The ink -/

theorem screenInk_iff (curve : List Nat) (v threshold : Nat) :
    screenInk curve v threshold = true ↔ (threshold : Int) ≤ correctTone curve v :=
  decide_eq_true_iff

theorem screenInk_of_correctTone_zero {curve : List Nat} {v threshold : Nat} (hthreshold : 1 ≤ threshold)
    (htone : correctTone curve v = 0) : screenInk curve v threshold = false := by
  rw [Bool.eq_false_iff, ne_eq, screenInk_iff, htone]
  omega

theorem screenInk_of_correctTone_full {curve : List Nat} {v threshold : Nat} (hthreshold : threshold ≤ 4095)
    (htone : correctTone curve v = 4095) : screenInk curve v threshold = true := by
  rw [screenInk_iff, htone]
  omega

/-- Settles O36, part by part: R90 keeps the source sample, R91 the corrected tone, R93 the cell, R94 the ink. -/
theorem screeningLaw : Obligations.ScreeningLaw := by
  refine ⟨fun x w sw hx hsw => ⟨sourceIndex_lt hx hsw, sourceIndex_spans_centre sw hx⟩, ?tone,
    fun x y cell a b hcell => ⟨cellCoord_lt x y a b hcell, cellCoord_eq_fmod x y a b hcell⟩,
    fun curve v threshold hlow hhigh =>
      ⟨screenInk_iff curve v threshold, screenInk_of_correctTone_zero hlow, screenInk_of_correctTone_full hhigh⟩⟩
  case tone =>
    intro curve v _ _ hcurve
    obtain ⟨hmin, hmax⟩ := correctTone_mem_Icc curve v
    exact ⟨correctTone_eq_fdiv curve v, hmin, hmax, correctTone_range hcurve v⟩

end Sys2Proof.Machine

/-! What a command leaves alone (O56), said once for each store, and the steps of the machine (O1 to O3, O58). -/

namespace Sys2Proof.Machine

/-! ### The machine's steps -/

/-- Settles O1. -/
theorem stepRunsFrontCommand : Obligations.StepRunsFrontCommand := by
  intro c rest s
  simp [step]

/-- Settles O2. -/
theorem emptyQueueIdles : Obligations.EmptyQueueIdles := by
  intro s hs
  simp [step, hs]

/-! ### Which commands stop -/

/-- An outcome that is a next state, neither a fault nor a refusal. -/
def Goes (o : Host.Outcome State Fault Refusal) : Prop := ∃ t, o = .next t

theorem goes_next (t : State) : Goes (.next t) := ⟨t, rfl⟩

theorem event_goes (s : State) (f : State → State) : Goes (s.event f) := by
  unfold State.event
  split <;> exact goes_next _

theorem eventWhen_goes (s : State) (due : Bool) (f : State → State) : Goes (s.eventWhen due f) := by
  unfold State.eventWhen
  split
  · exact event_goes s f
  · exact goes_next s

theorem carryOut_goes (s : State) (kind : Byte) (f : Message → State → State) : Goes (s.carryOut kind f) := by
  unfold State.carryOut
  repeat' split
  all_goals exact goes_next _

theorem takeFrame_goes (s : State) (kind : Byte) (f : List Byte → State → State) : Goes (s.takeFrame kind f) := by
  unfold State.takeFrame
  split
  · exact event_goes s _
  · exact goes_next s

/-- A burst's end stops only where the burst in progress lies past the end of plate memory. -/
theorem execBurstDone_goes_or_outside (s : State) :
    Goes (execBurstDone s)
      ∨ execBurstDone s = .fault .outsidePlateMemory ∧ ∃ b, s.arbiter.burst = some b ∧ b.inside = false := by
  unfold execBurstDone
  split
  next b hb =>
    split
    · exact .inl (event_goes s _)
    next hout =>
      split
      · exact .inl (goes_next s)
      · exact .inr ⟨rfl, b, hb, by simpa using hout⟩
  · exact .inl (goes_next s)

/-- Every command but BURST_DONE completes from every state. -/
theorem exec_goes {c : Instr} (hc : c ≠ .burstDone) (s : State) : Goes (exec c s) := by
  cases c with
  | burstDone => exact absurd rfl hc
  | plateDefine | plateRelease | plateAbort | bandQuery | feedClear | screenBegin | screenTable | screenEnd | plateExpose
  | exposeSetup | monitorRead | monitorMeasure | monitorStop | stampLoad | plateReport | status | softReset =>
    exact carryOut_goes s _ _
  | selectFrame | openFrame | dataFrame | closeFrame => exact takeFrame_goes s _ _
  | index ticks pulses => exact event_goes s fun s => s.takeIndex ticks.toNat pulses.toNat
  | imageEdge ticks pulses => exact event_goes s fun s => s.takeEdge ticks.toNat pulses.toNat
  | drumReadyFall | drumReadyRise => exact event_goes _ _
  | messageReceived | messageLengthTooLong | messageGap | transmitReply | transmitNotice | messageSent
  | syncByteReceived | frameArrivalStart | frameArrivalEnd | feedFrameGap | lossMark | fetchLineBegin
  | indexWatchdogExpiry | refStepEnd => exact eventWhen_goes s _ _
  | resetPinAsserted | powerOnReset => exact goes_next _
  | unknownRequestKind =>
    simp only [exec, execUnknownRequestKind]
    repeat' split
    all_goals exact goes_next _
  | checkErrorFrame =>
    simp only [exec, execCheckErrorFrame]
    split
    · exact event_goes s _
    · exact goes_next s
  | renderStart =>
    simp only [exec, execRenderStart]
    split
    · exact eventWhen_goes s _ _
    · exact goes_next s
  | lineDecodeEnd =>
    simp only [exec, execLineDecodeEnd]
    split
    · exact eventWhen_goes s _ _
    · exact goes_next s
  | screenRenderEnd =>
    simp only [exec, execScreenRenderEnd]
    split
    · exact eventWhen_goes s _ _
    · exact goes_next s
  | burstGrant =>
    simp only [exec, execBurstGrant]
    split
    · exact eventWhen_goes s _ _
    · exact goes_next s
  | beamStepPulseEnd =>
    simp only [exec, execBeamStepPulseEnd]
    split
    · exact event_goes s _
    · exact goes_next s
  | beamStepGateTimeout =>
    simp only [exec, execBeamStepGateTimeout]
    split
    · exact event_goes s _
    · exact goes_next s

/-- Settles O3: BURST_DONE alone can stop, and stops past the end of plate memory. -/
theorem onlyABurstOutsideMemoryStops : Obligations.OnlyABurstOutsideMemoryStops := by
  intro c s
  by_cases hc : c = .burstDone
  · subst hc
    rcases execBurstDone_goes_or_outside s with ⟨t, ht⟩ | ⟨hf, b, hb, hout⟩
    · simp [exec, ht]
    · refine ⟨by simp [exec, hf], fun f _ => ⟨rfl, b, hb, ?_⟩⟩
      exact Nat.not_le.mp (of_decide_eq_false hout)
  · obtain ⟨t, ht⟩ := exec_goes hc s
    simp [ht]

/-! ### Each store changes only with the commands that own it -/

section owners
variable {c : Instr} {s u : State}

theorem effect_pending (h : Effect c s u) : u.pending = s.pending := by
  cases c <;> simp only [Effect] at h
  case softReset =>
    obtain ⟨m, -, rfl⟩ := h
    unfold resetRequest
    split
    · rfl
    · simp
  case powerOnReset => exact h ▸ rfl
  case resetPinAsserted => exact h ▸ rfl
  all_goals aesop

theorem effect_memory (h : Effect c s u) (hdone : c ≠ .burstDone) (hsoft : c ≠ .softReset)
    (hpin : c ≠ .resetPinAsserted) (hpower : ∀ a r, c ≠ .powerOnReset a r) : u.memory = s.memory := by
  cases c <;> simp only [Effect] at h
  case burstDone => exact absurd rfl hdone
  case softReset => exact absurd rfl hsoft
  case resetPinAsserted => exact absurd rfl hpin
  case powerOnReset a r => exact absurd rfl (hpower a r)
  all_goals
    clear hdone hsoft hpin hpower
    aesop

theorem effect_stamps (h : Effect c s u) (hload : c ≠ .stampLoad) (hpower : ∀ a r, c ≠ .powerOnReset a r) :
    u.stamps = s.stamps := by
  cases c <;> simp only [Effect] at h
  case stampLoad => exact absurd rfl hload
  case powerOnReset a r => exact absurd rfl (hpower a r)
  case softReset =>
    obtain ⟨m, -, rfl⟩ := h
    unfold resetRequest
    split
    · rfl
    · simp
  case resetPinAsserted => exact h ▸ rfl
  all_goals
    clear hload hpower
    aesop

end owners

/-! ### The pins besides the laser head -/

/-- What the events inside the part leave of the pins: the RESET pin, DRUM READY and the straps. -/
def SamePins (x y : Pins) : Prop :=
  x.resetAsserted = y.resetAsserted ∧ x.drumReady = y.drumReady ∧ x.address = y.address ∧ x.rate = y.rate

section pins
variable {s : State} {x : Pins}

theorem samePins_refl (x : Pins) : SamePins x x := ⟨rfl, rfl, rfl, rfl⟩

theorem stopEngine_samePins (h : SamePins s.pins x) : SamePins s.stopEngine.pins x := by
  have : SamePins s.laserOff.pins x := h
  simpa [State.stopEngine] using this

theorem drumFault_samePins (c : DrumCause) (h : SamePins s.pins x) : SamePins (s.drumFault c).pins x := by
  unfold State.drumFault
  split <;> simp [stopEngine_samePins h]

theorem endCopy_samePins (t : Taken) (p : Plate) (h : SamePins s.pins x) : SamePins (s.endCopy t p).pins x := by
  unfold State.endCopy
  dsimp only
  split <;> simp [stopEngine_samePins h]

theorem plateAbort_samePins (m : Message) (h : SamePins s.pins x) : SamePins (plateAbort m s).pins x := by
  unfold plateAbort State.abortPlate
  repeat' split
  all_goals simp [stopEngine_samePins h, h]

theorem takeIndex_samePins (ticks pulses : Nat) (h : SamePins s.pins x) : SamePins (s.takeIndex ticks pulses).pins x := by
  have hoff : SamePins s.laserOff.pins x := h
  unfold State.takeIndex State.indexExposing
  repeat' split
  all_goals simp [h, hoff, endCopy_samePins, drumFault_samePins]

theorem handSwath_samePins (t : Taken) (p : Plate) (sw : Nat) (underrun : Bool) (lines : List (List Byte))
    (h : SamePins s.pins x) : SamePins (s.handSwath t p sw underrun lines).pins x := by
  cases underrun <;> simpa [State.handSwath, SamePins] using h

theorem takeSwath_samePins (t : Taken) (p : Plate) (h : SamePins s.pins x) : SamePins (s.takeSwath t p).pins x := by
  unfold State.takeSwath
  dsimp only
  split
  · exact handSwath_samePins t p _ _ _ h
  · unfold State.underrunSwath
    dsimp only
    split
    · exact handSwath_samePins _ _ _ _ _ (by simpa using h)
    · simpa using h

theorem takeEdge_samePins (ticks pulses : Nat) (h : SamePins s.pins x) : SamePins (s.takeEdge ticks pulses).pins x := by
  unfold State.takeEdge
  repeat' split
  · exact h
  · simpa using h
  · unfold State.edgeExposing
    split
    next t p _ => simpa using takeSwath_samePins t p (s := s.withEngine { s.engine with edgeSeen := true }) h
    · exact h
  all_goals exact h

theorem readyFalls_samePins (h : SamePins s.pins x) : SamePins s.readyFalls.pins x := by
  unfold State.readyFalls
  split <;> simp [h, drumFault_samePins]

end pins

section owners
variable {c : Instr} {s u : State}

/-- The straps as read stand but for the power-on reset. -/
theorem effect_straps (h : Effect c s u) (hpower : ∀ a r, c ≠ .powerOnReset a r) :
    u.pins.address = s.pins.address ∧ u.pins.rate = s.pins.rate := by
  have of_same {t : State} : SamePins t.pins s.pins →
      t.pins.address = s.pins.address ∧ t.pins.rate = s.pins.rate := fun ⟨_, _, ha, hr⟩ => ⟨ha, hr⟩
  cases c <;> simp only [Effect] at h
  case powerOnReset a r => exact absurd rfl (hpower a r)
  case plateAbort =>
    obtain ⟨m, -, rfl⟩ := h
    exact of_same (plateAbort_samePins m (samePins_refl _))
  case softReset =>
    obtain ⟨m, -, rfl⟩ := h
    unfold resetRequest
    split
    · exact ⟨rfl, rfl⟩
    · simp
  case resetPinAsserted => exact h ▸ ⟨rfl, rfl⟩
  case index => exact h ▸ of_same (takeIndex_samePins _ _ (samePins_refl _))
  case imageEdge => exact h ▸ of_same (takeEdge_samePins _ _ (samePins_refl _))
  case drumReadyFall =>
    rcases h with rfl | rfl
    · exact ⟨rfl, rfl⟩
    · exact (readyFalls_samePins (x := (s.setDrumReady false).pins) (samePins_refl _)).2.2
  case drumReadyRise =>
    rcases h with rfl | rfl
    · exact ⟨rfl, rfl⟩
    · simp [State.setDrumReady]
  case indexWatchdogExpiry => exact h.2 ▸ of_same (drumFault_samePins _ (samePins_refl _))
  all_goals
    clear of_same hpower
    aesop

end owners

/-! ### The ring's write position and the renderer served last -/

section ring
variable (s : State)

@[simp] theorem releaseRing_ring : s.releaseRing.segs.writePos = s.segs.writePos := by simp [releaseRing_segs]

@[simp] theorem discard_ring (w : Entry → Bool) : (s.discard w).segs.writePos = s.segs.writePos := by
  simp [State.discard]

@[simp] theorem dropIntake_lastServed (a : Arbiter) : a.dropIntake.lastServed = a.lastServed := rfl

@[simp] theorem abandon_ring (r : Abandon) (i : Intake) : (s.abandon r i).segs.writePos = s.segs.writePos
    ∧ (s.abandon r i).arbiter.lastServed = s.arbiter.lastServed := by
  unfold State.abandon
  split
  · dsimp only
    split <;> simp
  all_goals simp

@[simp] theorem interrupt_ring (w : Header → Bool) : (s.interrupt w).segs.writePos = s.segs.writePos
    ∧ (s.interrupt w).arbiter.lastServed = s.arbiter.lastServed := by
  unfold State.interrupt
  split <;> simp

@[simp] theorem endPlate_ring (p : Plate) (x : PlateState) (late : Bool) : (s.endPlate p x late).segs.writePos = s.segs.writePos
    ∧ (s.endPlate p x late).arbiter.lastServed = s.arbiter.lastServed := by
  simp [State.endPlate]

@[simp] theorem faultPlate_ring (p : Plate) (final : Bool) : (s.faultPlate p final).segs.writePos = s.segs.writePos
    ∧ (s.faultPlate p final).arbiter.lastServed = s.arbiter.lastServed := by
  unfold State.faultPlate
  split <;> simp

@[simp] theorem drumFault_ring (c : DrumCause) : (s.drumFault c).segs.writePos = s.segs.writePos
    ∧ (s.drumFault c).arbiter.lastServed = s.arbiter.lastServed := by
  unfold State.drumFault
  split <;> simp

@[simp] theorem plateRelease_ring (m : Message) : (plateRelease m s).segs.writePos = s.segs.writePos
    ∧ (plateRelease m s).arbiter.lastServed = s.arbiter.lastServed := by
  unfold plateRelease State.removePlate
  repeat' split
  all_goals simp

@[simp] theorem plateAbort_ring (m : Message) : (plateAbort m s).segs.writePos = s.segs.writePos
    ∧ (plateAbort m s).arbiter.lastServed = s.arbiter.lastServed := by
  unfold plateAbort State.abortPlate
  repeat' split
  all_goals simp

@[simp] theorem takeSelect_ring (body : List Byte) : (takeSelect body s).segs.writePos = s.segs.writePos
    ∧ (takeSelect body s).arbiter.lastServed = s.arbiter.lastServed := by
  simp [takeSelect]

@[simp] theorem takeData_ring (body : List Byte) : (takeData body s).segs.writePos = s.segs.writePos
    ∧ (takeData body s).arbiter.lastServed = s.arbiter.lastServed := by
  unfold takeData
  repeat' split
  all_goals simp

@[simp] theorem takeClose_ring (body : List Byte) : (takeClose body s).segs.writePos = s.segs.writePos
    ∧ (takeClose body s).arbiter.lastServed = s.arbiter.lastServed := by
  unfold takeClose State.completeSegment
  repeat' split
  all_goals simp

@[simp] theorem takeBadFrame_ring (kind : Byte) : (takeBadFrame kind s).segs.writePos = s.segs.writePos
    ∧ (takeBadFrame kind s).arbiter.lastServed = s.arbiter.lastServed := by
  unfold takeBadFrame
  dsimp only
  split <;> simp

@[simp] theorem takeLoss_ring : (takeLoss s).segs.writePos = s.segs.writePos
    ∧ (takeLoss s).arbiter.lastServed = s.arbiter.lastServed := by
  simp [takeLoss]

@[simp] theorem startRender_ring (e : Entry) : (s.startRender e).segs.writePos = s.segs.writePos
    ∧ (s.startRender e).arbiter.lastServed = s.arbiter.lastServed := by
  unfold State.startRender State.giveEntry
  repeat' split
  all_goals simp

@[simp] theorem endRender_ring (kind : SegKind) (k : Work) : (s.endRender kind k).segs.writePos = s.segs.writePos
    ∧ (s.endRender kind k).arbiter.lastServed = s.arbiter.lastServed := by
  unfold State.endRender State.endRenderCore
  dsimp only
  repeat' split
  all_goals simp

@[simp] theorem endDecode_ring (d : Decode) : (endDecode d s).segs.writePos = s.segs.writePos
    ∧ (endDecode d s).arbiter.lastServed = s.arbiter.lastServed := by
  unfold endDecode
  split <;> simp

@[simp] theorem starve_ring (p : Plate) (copy b : Nat) (band : Band) : (s.starve p copy b band).segs.writePos = s.segs.writePos
    ∧ (s.starve p copy b band).arbiter.lastServed = s.arbiter.lastServed := by
  unfold State.starve State.discardLate
  dsimp only
  split <;> simp

@[simp] theorem decideBand_ring (b : Nat) : (s.decideBand b).segs.writePos = s.segs.writePos
    ∧ (s.decideBand b).arbiter.lastServed = s.arbiter.lastServed := by
  unfold State.decideBand
  repeat' split
  all_goals simp

@[simp] theorem beginLine_ring (l : Nat) : (s.beginLine l).segs.writePos = s.segs.writePos
    ∧ (s.beginLine l).arbiter.lastServed = s.arbiter.lastServed := by
  unfold State.beginLine
  dsimp only
  repeat' split
  all_goals simp

@[simp] theorem takeIndex_ring (ticks pulses : Nat) : (s.takeIndex ticks pulses).segs.writePos = s.segs.writePos
    ∧ (s.takeIndex ticks pulses).arbiter.lastServed = s.arbiter.lastServed := by
  unfold State.takeIndex State.indexExposing
  repeat' split
  all_goals simp

@[simp] theorem skipLine_ring (l : Nat) : (s.skipLine l).segs.writePos = s.segs.writePos
    ∧ (s.skipLine l).arbiter.lastServed = s.arbiter.lastServed := by
  unfold State.skipLine
  dsimp only
  repeat' split
  all_goals simp

theorem skipLines_ring (lines : List Nat) : (lines.foldl State.skipLine s).segs.writePos = s.segs.writePos
    ∧ (lines.foldl State.skipLine s).arbiter.lastServed = s.arbiter.lastServed := by
  induction lines generalizing s with
  | nil => exact ⟨rfl, rfl⟩
  | cons l rest ih => simpa using ih (s.skipLine l)

@[simp] theorem underrunSwath_ring (sw : Nat) : (s.underrunSwath sw).segs.writePos = s.segs.writePos
    ∧ (s.underrunSwath sw).arbiter.lastServed = s.arbiter.lastServed := by
  unfold State.underrunSwath State.skipTo
  dsimp only
  repeat' split
  all_goals simp [skipLines_ring]

@[simp] theorem takeSwath_ring (t : Taken) (p : Plate) : (s.takeSwath t p).segs.writePos = s.segs.writePos
    ∧ (s.takeSwath t p).arbiter.lastServed = s.arbiter.lastServed := by
  unfold State.takeSwath
  dsimp only
  split <;> simp

@[simp] theorem takeEdge_ring (ticks pulses : Nat) : (s.takeEdge ticks pulses).segs.writePos = s.segs.writePos
    ∧ (s.takeEdge ticks pulses).arbiter.lastServed = s.arbiter.lastServed := by
  unfold State.takeEdge State.edgeExposing
  repeat' split
  all_goals simp

@[simp] theorem readyFalls_ring : (s.readyFalls).segs.writePos = s.segs.writePos
    ∧ (s.readyFalls).arbiter.lastServed = s.arbiter.lastServed := by
  unfold State.readyFalls
  split <;> simp

end ring

section owners
variable {c : Instr} {s u : State}

theorem effect_writePos (h : Effect c s u) (hopen : c ≠ .openFrame) (hsoft : c ≠ .softReset)
    (hpower : ∀ a r, c ≠ .powerOnReset a r) : u.segs.writePos = s.segs.writePos := by
  cases c <;> simp only [Effect] at h
  case openFrame => exact absurd rfl hopen
  case softReset => exact absurd rfl hsoft
  case powerOnReset a r => exact absurd rfl (hpower a r)
  case resetPinAsserted => exact h ▸ rfl
  all_goals
    clear hopen hsoft hpower
    aesop

theorem effect_lastServed (h : Effect c s u) (hgrant : c ≠ .burstGrant) (hsoft : c ≠ .softReset)
    (hpower : ∀ a r, c ≠ .powerOnReset a r) : u.arbiter.lastServed = s.arbiter.lastServed := by
  cases c <;> simp only [Effect] at h
  case burstGrant => exact absurd rfl hgrant
  case softReset => exact absurd rfl hsoft
  case powerOnReset a r => exact absurd rfl (hpower a r)
  case resetPinAsserted => exact h ▸ rfl
  case burstDone =>
    obtain ⟨b, -, -, rfl⟩ := h
    simp [State.finishBurst]
  case openFrame =>
    obtain ⟨body, rfl⟩ := h
    unfold takeOpen
    split <;> simp
  all_goals
    clear hgrant hsoft hpower
    aesop

end owners

/-! ### The reading table, the output FIFO and the fetch position -/

section readings
variable (s : State)

@[simp] theorem closeEpisodes_readings : s.closeEpisodes.monitor.beamTable = s.monitor.beamTable
    ∧ s.closeEpisodes.monitor.refTable = s.monitor.refTable := by
  unfold State.closeEpisodes
  split <;> simp

@[simp] theorem takeHead_readings : s.takeHead.monitor.beamTable = s.monitor.beamTable
    ∧ s.takeHead.monitor.refTable = s.monitor.refTable := by
  unfold State.takeHead State.abandonScan
  repeat' split
  all_goals simp [Monitor.stopped]

@[simp] theorem drumFault_readings (c : DrumCause) : (s.drumFault c).monitor.beamTable = s.monitor.beamTable
    ∧ (s.drumFault c).monitor.refTable = s.monitor.refTable := by
  unfold State.drumFault State.stopEngine
  split <;> simp [Monitor.stopped]

@[simp] theorem plateAbort_readings (m : Message) : (plateAbort m s).monitor.beamTable = s.monitor.beamTable
    ∧ (plateAbort m s).monitor.refTable = s.monitor.refTable := by
  unfold plateAbort State.abortPlate State.stopEngine
  repeat' split
  all_goals simp [Monitor.stopped]

@[simp] theorem plateExpose_readings (m : Message) : (plateExpose m s).monitor.beamTable = s.monitor.beamTable
    ∧ (plateExpose m s).monitor.refTable = s.monitor.refTable := by
  unfold plateExpose State.authorise
  repeat' split
  all_goals simp

@[simp] theorem monitorMeasure_readings (m : Message) : (monitorMeasure m s).monitor.beamTable = s.monitor.beamTable
    ∧ (monitorMeasure m s).monitor.refTable = s.monitor.refTable := by
  unfold monitorMeasure State.beginScan State.scanRef State.beginStep
  dsimp only
  repeat' split
  all_goals simp

@[simp] theorem monitorStop_readings (m : Message) : (monitorStop m s).monitor.beamTable = s.monitor.beamTable
    ∧ (monitorStop m s).monitor.refTable = s.monitor.refTable := by
  unfold monitorStop
  repeat' split
  all_goals simp [Monitor.stopped]

@[simp] theorem readyFalls_readings : s.readyFalls.monitor.beamTable = s.monitor.beamTable
    ∧ s.readyFalls.monitor.refTable = s.monitor.refTable := by
  unfold State.readyFalls
  split <;> simp

@[simp] theorem exposeSetup_line (m : Message) : (exposeSetup m s).engine.fifo = s.engine.fifo
    ∧ (exposeSetup m s).engine.fetchPos = s.engine.fetchPos ∧ (exposeSetup m s).engine.swath = s.engine.swath := by
  unfold exposeSetup Engine.store
  repeat' split
  all_goals simp

@[simp] theorem readyRises_line : s.readyRises.engine.fifo = s.engine.fifo
    ∧ s.readyRises.engine.fetchPos = s.engine.fetchPos ∧ s.readyRises.engine.swath = s.engine.swath := by
  unfold State.readyRises
  split <;> simp

end readings

section owners
variable {c : Instr} {s u : State}

theorem effect_readings (h : Effect c s u) (hindex : ∀ a b, c ≠ .index a b) (hedge : ∀ a b, c ≠ .imageEdge a b)
    (href : ∀ a, c ≠ .refStepEnd a) (hpulse : ∀ a, c ≠ .beamStepPulseEnd a) (hgate : ∀ a, c ≠ .beamStepGateTimeout a)
    (hsoft : c ≠ .softReset) (hpower : ∀ a r, c ≠ .powerOnReset a r) :
    u.monitor.beamTable = s.monitor.beamTable ∧ u.monitor.refTable = s.monitor.refTable := by
  cases c <;> simp only [Effect] at h
  case index a b => exact absurd rfl (hindex a b)
  case imageEdge a b => exact absurd rfl (hedge a b)
  case refStepEnd a => exact absurd rfl (href a)
  case beamStepPulseEnd a => exact absurd rfl (hpulse a)
  case beamStepGateTimeout a => exact absurd rfl (hgate a)
  case softReset => exact absurd rfl hsoft
  case powerOnReset a r => exact absurd rfl (hpower a r)
  case resetPinAsserted => exact h ▸ ⟨rfl, rfl⟩
  all_goals
    clear hindex hedge href hpulse hgate hsoft hpower
    aesop

theorem effect_line (h : Effect c s u) (hindex : ∀ a b, c ≠ .index a b) (hedge : ∀ a b, c ≠ .imageEdge a b)
    (hfetch : c ≠ .fetchLineBegin) (hdone : c ≠ .burstDone) (hexpose : c ≠ .plateExpose) (habort : c ≠ .plateAbort)
    (hfall : c ≠ .drumReadyFall) (hdog : c ≠ .indexWatchdogExpiry) (hsoft : c ≠ .softReset) (hline : c ≠ .lineDecodeEnd)
    (hscreen : c ≠ .screenRenderEnd) (hpower : ∀ a r, c ≠ .powerOnReset a r) :
    u.engine.fifo = s.engine.fifo ∧ u.engine.fetchPos = s.engine.fetchPos ∧ u.engine.swath = s.engine.swath := by
  cases c <;> simp only [Effect] at h
  case index a b => exact absurd rfl (hindex a b)
  case imageEdge a b => exact absurd rfl (hedge a b)
  case fetchLineBegin => exact absurd rfl hfetch
  case burstDone => exact absurd rfl hdone
  case plateExpose => exact absurd rfl hexpose
  case plateAbort => exact absurd rfl habort
  case drumReadyFall => exact absurd rfl hfall
  case indexWatchdogExpiry => exact absurd rfl hdog
  case softReset => exact absurd rfl hsoft
  case lineDecodeEnd => exact absurd rfl hline
  case screenRenderEnd => exact absurd rfl hscreen
  case powerOnReset a r => exact absurd rfl (hpower a r)
  case resetPinAsserted => exact h ▸ ⟨rfl, rfl, rfl⟩
  all_goals
    clear hindex hedge hfetch hdone hexpose habort hfall hdog hsoft hline hscreen hpower
    aesop

end owners

/-- A property of the state reached that every operation of a command gives, that the state itself has, and that the test of
INTAKE STALL keeps. -/
theorem exec_gives {c : Instr} {s t : State} {P : State → Prop} (h : exec c s = .next t) (still : P s)
    (stall : ∀ u, P u → P u.testStall) (effect : ∀ u, Effect c s u → P u) : P t := by
  rcases exec_next h with ht | ⟨u, hu, ht | ht⟩
  · exact ht ▸ still
  · exact ht ▸ effect u hu
  · exact ht ▸ stall u (effect u hu)

/-- Settles O56: each store by the lemma that names its owners. -/
theorem onlyOwnersChange : Obligations.OnlyOwnersChange := by
  intro c s t h
  refine ⟨?pending, fun h1 h2 h3 h4 => ?memory, fun h1 h2 => ?stamps, fun h1 => ?straps, fun h1 h2 h3 => ?ring,
    fun h1 h2 h3 => ?served, fun h1 h2 h3 h4 h5 h6 h7 => ?readings,
    fun h1 h2 h3 h4 h5 h6 h7 h8 h9 h10 h11 h12 => ?line⟩
  case pending => exact exec_gives (P := fun t => t.pending = s.pending) h rfl (by simp) fun u hu =>
    effect_pending hu
  case memory => exact exec_gives (P := fun t => t.memory = s.memory) h rfl (by simp) fun u hu =>
    effect_memory hu h1 h2 h3 h4
  case stamps => exact exec_gives (P := fun t => t.stamps = s.stamps) h rfl (by simp) fun u hu =>
    effect_stamps hu h1 h2
  case straps =>
    exact exec_gives (P := fun t => t.pins.address = s.pins.address ∧ t.pins.rate = s.pins.rate) h ⟨rfl, rfl⟩ (by simp)
      fun u hu => effect_straps hu h1
  case ring => exact exec_gives (P := fun t => t.segs.writePos = s.segs.writePos) h rfl (by simp) fun u hu =>
    effect_writePos hu h1 h2 h3
  case served => exact exec_gives (P := fun t => t.arbiter.lastServed = s.arbiter.lastServed) h rfl (by simp) fun u hu =>
    effect_lastServed hu h1 h2 h3
  case readings =>
    exact exec_gives (P := fun t => t.monitor.beamTable = s.monitor.beamTable ∧ t.monitor.refTable = s.monitor.refTable) h
      ⟨rfl, rfl⟩ (by simp) fun u hu => effect_readings hu h1 h2 h3 h4 h5 h6 h7
  case line =>
    exact exec_gives
      (P := fun t => t.engine.fifo = s.engine.fifo ∧ t.engine.fetchPos = s.engine.fetchPos ∧ t.engine.swath = s.engine.swath)
      h ⟨rfl, rfl, rfl⟩ (by simp) fun u hu => effect_line hu h1 h2 h3 h4 h5 h6 h7 h8 h9 h10 h11 h12

/-! ### Plate memory's canonical form -/

/-- Every operation keeps the canonical form: a burst writes inside plate memory, a reset only loses cells. -/
theorem effect_wf {c : Instr} {s u : State} (h : Effect c s u) (hs : s.memory.wf = true) : u.memory.wf = true := by
  by_cases hdone : c = .burstDone
  · subst hdone
    obtain ⟨b, -, hin, rfl⟩ := h
    simpa [State.finishBurst] using Memory.after_wf hin hs
  by_cases hsoft : c = .softReset
  · subst hsoft
    obtain ⟨m, -, rfl⟩ := h
    unfold resetRequest
    split
    · exact Memory.stopped_wf hs
    · simpa using hs
  by_cases hpin : c = .resetPinAsserted
  · subst hpin
    exact h ▸ Memory.stopped_wf hs
  by_cases hpower : ∃ a r, c = .powerOnReset a r
  · obtain ⟨a, r, rfl⟩ := hpower
    exact h ▸ Memory.powerOn_wf s.memory
  · have hstands := effect_memory h hdone hsoft hpin fun a r hc => hpower ⟨a, r, hc⟩
    rwa [hstands]

/-- Settles O58. -/
theorem memoryStaysCanonical : Obligations.MemoryStaysCanonical := fun _ _ hs h =>
  kept_by_step (P := fun s => s.memory.wf = true) (fun _ _ hs => hs) (fun s hs => by simpa using hs)
    (fun _ _ _ => effect_wf) hs h

end Sys2Proof.Machine

/-! The resets (O4 to O6) and the control link (O7 to O11): what the RESET pin holds up, how a request at the head of the
buffer is answered, and what the receiver and the transmitter do to the link. -/

namespace Sys2Proof.Machine

/-! ### How a request and an event are answered -/

/-- A request of the command's kind at the head of the buffer is carried out. -/
theorem State.Heads.does {s : State} {m : Message} {rest : List Message} (h : s.Heads m rest) {c : Instr} {kind : Byte}
    {f : Message → State → State} (hc : exec c s = s.carryOut kind f) (hk : m.kind = kind) {t : State}
    (ht : f m s = t) : Answers c s t := by
  rw [Answers, hc, h.runs hk, ht]

/-- A request that its operation only answers. -/
theorem State.Heads.answers {s : State} {m : Message} {rest : List Message} (h : s.Heads m rest) {c : Instr} {kind : Byte}
    {f : Message → State → State} (hc : exec c s = s.carryOut kind f) (hk : m.kind = kind) {a : Status}
    {r : List Byte} (hf : f m s = s.answer a r) : Answers c s (s.replied m.tag rest a r) :=
  h.does hc hk (hf.trans (h.answer a r))

/-- An event that is due is taken where the RESET pin is not asserted. -/
theorem answers_eventWhen {s : State} {c : Instr} {due : Bool} {f : State → State} (hc : exec c s = s.eventWhen due f)
    (hr : s.pins.resetAsserted = false) (hd : due = true) {t : State} (ht : f s = t) : Answers c s t := by
  rw [Answers, hc, eventWhen_taken s due f hr hd, ht]

theorem answers_event {s : State} {c : Instr} {f : State → State} (hc : exec c s = s.event f)
    (hr : s.pins.resetAsserted = false) {t : State} (ht : f s = t) : Answers c s t := by
  rw [Answers, hc, event_taken s f hr, ht]

/-- An event that is not due leaves the part as it is. -/
theorem ignored_eventWhen {s : State} {c : Instr} {due : Bool} {f : State → State} (hc : exec c s = s.eventWhen due f)
    (hd : due = false) : Ignored c s := by
  rw [Ignored, hc, eventWhen_not_due s due f hd]

/-! ### The RESET pin -/

section pinned
variable {s : State} (h : s.pins.resetAsserted = true)
include h

theorem event_pinned (f : State → State) : s.event f = .next s := by simp [State.event, h]

theorem eventWhen_pinned (due : Bool) (f : State → State) : s.eventWhen due f = .next s := by
  unfold State.eventWhen
  split
  · exact event_pinned h f
  · rfl

theorem due_pinned : s.due = none := by simp [State.due, h]

theorem carryOut_pinned (kind : Byte) (f : Message → State → State) : s.carryOut kind f = .next s := by
  simp [State.carryOut, due_pinned h]

theorem takeFrame_pinned (kind : Byte) (f : List Byte → State → State) : s.takeFrame kind f = .next s := by
  unfold State.takeFrame
  split
  · exact event_pinned h _
  · rfl

end pinned

/-- While the pin is asserted no command is taken but the two of the pin itself and the two of the drum's level. -/
theorem ignored_pinned {c : Instr} {s : State} (h : s.pins.resetAsserted = true) (h1 : c ≠ .resetPinAsserted)
    (h2 : ∀ a r, c ≠ .powerOnReset a r) (h3 : c ≠ .drumReadyFall) (h4 : c ≠ .drumReadyRise) : Ignored c s := by
  unfold Ignored
  cases c <;> simp only [exec]
  case plateDefine => exact carryOut_pinned h _ _
  case plateRelease => exact carryOut_pinned h _ _
  case plateAbort => exact carryOut_pinned h _ _
  case bandQuery => exact carryOut_pinned h _ _
  case feedClear => exact carryOut_pinned h _ _
  case screenBegin => exact carryOut_pinned h _ _
  case screenTable => exact carryOut_pinned h _ _
  case screenEnd => exact carryOut_pinned h _ _
  case plateExpose => exact carryOut_pinned h _ _
  case exposeSetup => exact carryOut_pinned h _ _
  case monitorRead => exact carryOut_pinned h _ _
  case monitorMeasure => exact carryOut_pinned h _ _
  case monitorStop => exact carryOut_pinned h _ _
  case stampLoad => exact carryOut_pinned h _ _
  case plateReport => exact carryOut_pinned h _ _
  case status => exact carryOut_pinned h _ _
  case softReset => exact carryOut_pinned h _ _
  case unknownRequestKind => simp [execUnknownRequestKind, due_pinned h]
  case messageReceived => exact eventWhen_pinned h _ _
  case messageLengthTooLong => exact eventWhen_pinned h _ _
  case messageGap => exact eventWhen_pinned h _ _
  case transmitReply => exact eventWhen_pinned h _ _
  case transmitNotice => exact eventWhen_pinned h _ _
  case messageSent => exact eventWhen_pinned h _ _
  case syncByteReceived => exact eventWhen_pinned h _ _
  case resetPinAsserted => exact absurd rfl h1
  case powerOnReset a r => exact absurd rfl (h2 a r)
  case drumReadyFall => exact absurd rfl h3
  case drumReadyRise => exact absurd rfl h4
  case frameArrivalStart => exact eventWhen_pinned h _ _
  case frameArrivalEnd => exact eventWhen_pinned h _ _
  case feedFrameGap => exact eventWhen_pinned h _ _
  case selectFrame => exact takeFrame_pinned h _ _
  case openFrame => exact takeFrame_pinned h _ _
  case dataFrame => exact takeFrame_pinned h _ _
  case closeFrame => exact takeFrame_pinned h _ _
  case checkErrorFrame => unfold execCheckErrorFrame; split <;> [exact event_pinned h _; rfl]
  case lossMark => exact eventWhen_pinned h _ _
  case renderStart => unfold execRenderStart; split <;> [exact eventWhen_pinned h _ _; rfl]
  case lineDecodeEnd => unfold execLineDecodeEnd; split <;> [exact eventWhen_pinned h _ _; rfl]
  case screenRenderEnd => unfold execScreenRenderEnd; split <;> [exact eventWhen_pinned h _ _; rfl]
  case burstGrant => unfold execBurstGrant; split <;> [exact eventWhen_pinned h _ _; rfl]
  case burstDone =>
    unfold execBurstDone
    split
    · rw [event_pinned h, if_pos h, ite_self]
    · rfl
  case fetchLineBegin => exact eventWhen_pinned h _ _
  case index => exact event_pinned h _
  case imageEdge => exact event_pinned h _
  case indexWatchdogExpiry => exact eventWhen_pinned h _ _
  case refStepEnd => exact eventWhen_pinned h _ _
  case beamStepPulseEnd => unfold execBeamStepPulseEnd; split <;> [exact event_pinned h _; rfl]
  case beamStepGateTimeout => unfold execBeamStepGateTimeout; split <;> [exact event_pinned h _; rfl]

/-- Settles O4. -/
theorem powerOnResetState : Obligations.PowerOnResetState := by
  intro address rate s
  exact ⟨s.powerOn address rate, rfl, rfl, rfl, rfl, rfl, rfl, rfl, rfl, rfl, rfl, rfl, rfl, rfl, rfl, rfl, rfl, rfl,
    rfl, rfl, rfl⟩

/-- Settles O5. -/
theorem resetPin : Obligations.ResetPin := by
  refine ⟨fun s => ⟨s.assertReset, rfl, rfl, rfl, rfl, rfl, rfl, rfl, rfl, rfl, rfl, rfl, rfl, rfl, rfl, rfl, rfl, rfl,
    rfl⟩, fun c s h h1 h2 => ⟨?_, ?_, ignored_pinned h h1 h2⟩⟩
  · rintro rfl
    exact event_pinned (s := s.setDrumReady false) h _
  · rintro rfl
    exact event_pinned (s := s.setDrumReady true) h _

/-! ### The soft reset -/

theorem testStall_of_empty {s : State} (h : s.segs.queue = []) : s.testStall = s := by simp [State.testStall, h]

theorem softReset_link {s : State} {m : Message} {rest : List Message} (h : s.Heads m rest) :
    s.softReset.link = { s.link with
      requests := [], replies := s.link.replies ++ [⟨some m.tag, .ok, []⟩], notices := [], lost := 0, errors := 0 } := by
  obtain ⟨_, hj, hq, _⟩ := h
  simp [State.softReset, Link.softReset, Link.answer, hq, hj]

theorem softReset_screens {s : State} {n : Nat} {x : ScreenSet} (h : s.screens[n]? = some x) :
    s.softReset.screens[n]? = some x.softReset := by
  simp [State.softReset, h]

/-- A reset keeps plate memory where no write is being carried out. -/
theorem stopped_of_no_write {m : Memory} {a : Arbiter} (h : ∀ b cells, a.burst = some b → b.op ≠ .write cells) :
    m.stopped a = m := by
  unfold Memory.stopped
  split
  next b hb =>
    split
    next cells hop => exact absurd hop (h b cells hb)
    · rfl
  · rfl

/-- Settles O6. -/
theorem softResetState : Obligations.SoftResetState := by
  intro s m rest hm hk
  refine ⟨fun hb => hm.answers (f := resetRequest) rfl hk (if_neg hb), fun hb => ⟨s.softReset, ?_, softReset_link hm,
    rfl, rfl, rfl, rfl, rfl, rfl, rfl, rfl, rfl, rfl, rfl, rfl, ?_, stopped_of_no_write⟩⟩
  · have := hm.does (c := .softReset) (f := resetRequest) rfl hk (if_pos hb)
    rwa [Answers, testStall_of_empty rfl] at this
  · intro n x hx
    rw [softReset_screens hx]
    rfl

/-! ### The receiver -/

theorem receiving_eq {l : Link} (h : l.receiver = .receiving) : l.receiving = true := by simp [Link.receiving, h]

theorem tell_of_room {l : Link} (r : Reply) (h : l.replies.length + (if l.job.isSome then 1 else 0) < 8) :
    l.tell r = { l with replies := l.replies ++ [r] } := if_pos h

theorem tell_of_full {l : Link} (r : Reply) (h : 8 ≤ l.replies.length + (if l.job.isSome then 1 else 0)) :
    l.tell r = l := if_neg (by omega)

/-- A good message inside the limit joins the buffer, or is answered OVERFLOW. -/
theorem messageReceived_good {kind tag : Byte} {body : List Byte} {crc : Crc16} {s : State}
    (hr : s.pins.resetAsserted = false) (hm : s.link.receiver = .receiving) (hl : body.length ≤ 4096)
    (hc : crc16 (encBE 2 body.length ++ kind :: tag :: body) = crc) {t : State}
    (ht : s.withLink ({ s.link with receiver := .hunt }.join ⟨kind, tag, body⟩) = t) :
    Answers (.messageReceived kind tag body crc) s t :=
  answers_eventWhen rfl hr (by simp [receiving_eq hm, hl]) (by
    rw [← ht]
    simp [Link.judge, messageGood, hc])

/-- Settles O7. -/
theorem receiverTakesMessages : Obligations.ReceiverTakesMessages := by
  refine ⟨fun s hr => ⟨fun h => ?_, fun h => ?_⟩, fun kind tag body crc s hr hm hl hc => ⟨fun hq => ?_, fun hq hp => ?_,
    fun hq hp => ?_⟩⟩
  · exact answers_eventWhen rfl hr (by simp [Link.receiving, h]) rfl
  · exact ignored_eventWhen rfl (by simp [Link.receiving, h])
  · exact messageReceived_good hr hm hl hc (by rw [Link.join, if_pos hq])
  · exact messageReceived_good hr hm hl hc (by
      rw [Link.join, if_neg (show ¬ s.link.requests.length < 4 by omega)]
      exact congrArg s.withLink (tell_of_room _ hp))
  · exact messageReceived_good hr hm hl hc (by
      rw [Link.join, if_neg (show ¬ s.link.requests.length < 4 by omega)]
      exact congrArg s.withLink (tell_of_full _ hp))

theorem error_eq (l : Link) : l.error = { l with
    receiver := .hunt
    errors := min (l.errors + 1) 65535
    replies := if l.replies.length + (if l.job.isSome then 1 else 0) < 8 then l.replies ++ [⟨none, .linkError, []⟩]
      else l.replies } := by
  by_cases h : l.replies.length + (if l.job.isSome then 1 else 0) < 8
  · rw [if_pos h]
    exact tell_of_room _ h
  · rw [if_neg h]
    exact tell_of_full _ (by dsimp only; omega)

/-- Settles O8. -/
theorem linkErrors : Obligations.LinkErrors := by
  intro c s hr hm h
  have herr : s.withLink s.link.error = _ := congrArg s.withLink (error_eq s.link)
  rcases h with rfl | ⟨n, hn, rfl⟩ | ⟨kind, tag, body, crc, hl, hc, rfl⟩
  · exact answers_eventWhen rfl hr (receiving_eq hm) herr
  · exact answers_eventWhen rfl hr (by simp [receiving_eq hm, hn]) herr
  · refine answers_eventWhen rfl hr (by simp [receiving_eq hm, hl]) (.trans ?_ herr)
    simp [Link.judge, messageGood, hc]

/-! ### The transmitter -/

theorem sendNext_reply {s : State} {r : Reply} {rest : List Reply} (h : s.link.replies = r :: rest) :
    s.sendNext = s.withLink { s.link with replies := rest, sending := some r.message } := by
  simp [State.sendNext, Link.beginSend, h]

theorem sendNext_notice {s : State} {n : Notice} {rest : List Notice} (h : s.link.replies = [])
    (hn : s.link.notices = n :: rest) :
    s.sendNext = s.withLink { s.link with notices := rest, lost := 0, sending := some (n.message s.link.lost) } := by
  simp [State.sendNext, Link.beginSend, h, hn]

theorem sendNext_nothing {s : State} (h : s.link.replies = []) (hn : s.link.notices = []) :
    s.sendNext = s.withLink { s.link with sending := none } := by
  simp [State.sendNext, Link.beginSend, h, hn]

/-- The end of a message sent begins the next. -/
theorem messageSent_answers {s t : State} {m : Message} (hr : s.pins.resetAsserted = false)
    (hm : s.link.sending = some m) (ht : s.sendNext = t) : Answers .messageSent s t :=
  answers_eventWhen rfl hr (by rw [hm]; rfl) ht

/-- The message a reply is sent as, its status code written out (R176). -/
theorem reply_message (r : Reply) : r.message = ⟨0x80, r.tag.getD 0, (match r.status with
    | .ok => 0 | .busy => 1 | .full => 2 | .exists => 3 | .notFound => 4 | .badArg => 5 | .badSeq => 6 | .state => 7
    | .incomplete => 8 | .overflow => 9 | .linkError => 10) :: (if r.tag.isSome then 1 else 0) :: r.result⟩ := by
  unfold Reply.message
  cases r.status <;> rfl

/-- Settles O9. -/
theorem transmitterOrder : Obligations.TransmitterOrder := by
  refine ⟨fun s => rfl, fun s hr => ⟨fun r rest hq => ?_, fun n rest hq hn => ?_, fun m hq hn hm => ?_⟩⟩
  · have hs := sendNext_reply hq
    rw [reply_message] at hs
    exact ⟨fun hf => answers_eventWhen rfl hr (by simp [Link.replyDue, hf, hq]) hs, fun m hm =>
      messageSent_answers hr hm hs⟩
  · have hs := sendNext_notice hq hn
    exact ⟨fun hf => answers_eventWhen rfl hr (by simp [Link.noticeDue, hf, hq, hn]) hs, fun m hm =>
      messageSent_answers hr hm hs⟩
  · exact messageSent_answers hr hm (sendNext_nothing hq hn)

/-! ### Unknown kinds and STATUS -/

theorem not_isRequestKind {k : Byte} (h : k = 0 ∨ k = 0x0C ∨ 0x12 < k.toNat) : isRequestKind k = false := by
  revert k
  decide

/-- Settles O10. -/
theorem unknownKindIsBadArg : Obligations.UnknownKindIsBadArg := by
  intro s m rest hm hk
  have hd : s.due = some m := due_of_heads hm.1 hm.2.1 hm.2.2.1 hm.2.2.2
  simp [Answers, exec, execUnknownRequestKind, hd, not_isRequestKind hk, hm.answer]

@[simp] theorem encBE_length (k n : Nat) : (encBE k n).length = k := by
  induction k with
  | zero => rfl
  | succ k ih => simp [encBE, ih]

@[simp] theorem encBE_one (n : Nat) : encBE 1 n = [byteOf n] := by simp [encBE]

theorem takenBytes_length (e : Engine) : e.takenBytes.length = 6 := by
  unfold Engine.takenBytes
  split <;> simp

theorem identityBytes_length (h : Option Header) : (identityBytes h).length = 5 := by
  cases h <;> simp [identityBytes]

theorem statusBytes_length (s : State) : s.statusBytes.length = 55 := by
  simp [State.statusBytes, State.statusEngine, State.statusSegments, Counters.bytes, takenBytes_length,
    identityBytes_length, encBool]

/-- An identity group, byte by byte (R190). -/
theorem identityBytes_eq (h : Option Header) : identityBytes h = match h with
    | none => [0, 0, 0, 0, 0]
    | some h => 1 :: encBE 2 h.plate ++ [byteOf h.band, byteOf h.seq] := by
  cases h
  · rfl
  · simp [identityBytes]

theorem takenBytes_eq (e : Engine) : e.takenBytes = match e.taken with
    | none => [0, 0, 0, 0, 0, 0]
    | some t => 1 :: encBE 2 t.plate ++ [byteOf t.copy] ++ encBE 2 e.swath := by
  unfold Engine.takenBytes
  cases e.taken
  · rfl
  · simp

theorem engineState_bytes (x : EngineState) : [byteOf x.pos, byteOf x.phaseCode] = match x with
    | .idle => [0, 0]
    | .waitLead => [1, 0]
    | .waitDrum => [2, 0]
    | .leadIn => [3, 0]
    | .exposing => [4, 0]
    | .change .awaitFall => [5, 0]
    | .change .awaitRise => [5, 1]
    | .change .awaitIndex => [5, 2] := by
  rcases x with _ | _ | _ | _ | _ | x <;> [rfl; rfl; rfl; rfl; rfl; cases x <;> rfl]

theorem intake_bytes (f : Option Header → List Byte) (i : Intake) : byteOf i.pos :: f i.header? = match i with
    | .unselected => 0 :: f none
    | .selected => 1 :: f none
    | .assembling seg => 2 :: f (some seg.header)
    | .skipping => 3 :: f none := by
  cases i <;> rfl

theorem activity_byte (a : Activity) : byteOf a.pos =
    match a with | .idle => 0 | .exposure => 1 | .scanSingle => 2 | .scanContinuous => 3 := by
  cases a <;> rfl

theorem step_byte (x : Step) : byteOf x.pos =
    match x with | .none => 0 | .ref => 1 | .beam k => byteOf (2 + k.val) := by
  cases x <;> rfl

/-- Settles O11. -/
theorem statusReports : Obligations.StatusReports := by
  intro s m rest hm hk
  refine ⟨fun hb => hm.answers (f := statusRequest) rfl hk (if_neg hb), fun hb =>
    hm.answers (f := statusRequest) rfl hk (if_pos hb), statusBytes_length s, ?_⟩
  intro flag identity taken engine intake activity step
  have hidentity : identity = identityBytes := funext fun h => (identityBytes_eq h).symm
  have htaken : taken = s.engine.takenBytes := (takenBytes_eq _).symm
  have hengine : engine = [byteOf s.engine.state.pos, byteOf s.engine.state.phaseCode] := (engineState_bytes _).symm
  have hintake : intake = byteOf s.feed.intake.pos :: identity s.feed.intake.header? := (intake_bytes identity _).symm
  have hactivity : activity = byteOf s.monitor.activity.pos := (activity_byte _).symm
  have hstep : step = byteOf s.monitor.step.pos := (step_byte _).symm
  rw [htaken, hengine, hintake, hactivity, hstep, hidentity]
  simp [State.statusBytes, State.statusEngine, State.statusSegments, Counters.bytes, encBool, flag, State.freeRing,
    heldRing, ringSize]
  cases s.table.queue <;> rfl

end Sys2Proof.Machine

/-! The requests of the plate table: PLATE DEFINE and the place of a new plate (O12 to O14), PLATE RELEASE (O16) and BAND
QUERY (O18). -/

namespace Sys2Proof.Machine

/-! ### Request bodies -/

theorem plateIdBody_of_length {body : List Byte} (h : body.length = 2) : plateIdBody body = some (field body 0 2) :=
  if_pos h

theorem plateIdBody_none {body : List Byte} (h : body.length ≠ 2) : plateIdBody body = none := if_neg h

theorem plateDefineBody_none {body : List Byte}
    (h : body.length < 11 ∨ body.length ≠ 11 + 5 * field body 9 1 + 6 * field body 10 1) : plateDefineBody body = none :=
  if_neg (by omega)

/-! ### PLATE DEFINE refused -/

theorem plateDefine_refused {m : Message} {s : State} {q : PlateSpec} (hq : plateDefineBody m.body = some q) {x : Status}
    (hx : s.defineCheck q = x) (hok : x ≠ .ok) : plateDefine m s = s.answer x [] := by
  unfold plateDefine
  simp only [hq]
  rw [hx]
  cases x with
  | ok => exact absurd rfl hok
  | _ => rfl

/-- The arguments of a PLATE DEFINE that the table of R15 calls bad. -/
def PlateSpec.Bad (q : PlateSpec) : Prop :=
  q.id = 0 ∨ q.width < 1024 ∨ 32768 < q.width ∨ q.width % 32 ≠ 0 ∨ q.height < 256 ∨ 32768 < q.height
    ∨ q.bands.length ≠ (q.height + 255) / 256 ∨ q.copies = 0 ∨ 8 < q.copies ∨ q.lead = 0 ∨ 16 < q.lead
    ∨ 8 < q.stamps.length ∨ ∃ t ∈ q.stamps, 31 < t.pattern

theorem defineCheck_exists {s : State} {q : PlateSpec} (h : ∃ p ∈ s.table.plates, p.id = q.id) :
    s.defineCheck q = .exists := by
  obtain ⟨p, hp, hid⟩ := h
  have : (s.plate? q.id).isSome = true := by
    rw [Option.isSome_iff_ne_none, ne_eq, plate?_none]
    exact fun hn => hn p hp hid
  exact if_pos this

theorem defineCheck_full {s : State} {q : PlateSpec} (h : ∀ p ∈ s.table.plates, p.id ≠ q.id)
    (hn : 8 ≤ s.table.plates.length) : s.defineCheck q = .full := by
  simp [State.defineCheck, (plate?_none s q.id).mpr h, hn]

/-- One more check of R15 in front of the checks `Q`. -/
theorem check_cons {P Q : Prop} [Decidable P] {x : Status} (h : (Q → x = .badArg) ∧ (¬Q → x = .ok)) :
    (P ∨ Q → (if P then .badArg else x) = .badArg) ∧ (¬(P ∨ Q) → (if P then .badArg else x) = .ok) := by
  by_cases hP : P
  · simp [hP]
  · simpa [hP] using h

/-- With a new id and room in the table, the check is that of the arguments. -/
theorem defineCheck_new {s : State} {q : PlateSpec} (h : ∀ p ∈ s.table.plates, p.id ≠ q.id)
    (hn : s.table.plates.length < 8) : (q.Bad → s.defineCheck q = .badArg) ∧ (¬q.Bad → s.defineCheck q = .ok) := by
  have hroom : ¬8 ≤ s.table.plates.length := Nat.not_le.mpr hn
  have hany : (q.stamps.any fun t => decide (31 < t.pattern)) = true ↔ ∃ t ∈ q.stamps, 31 < t.pattern := by simp
  have hbad : q.Bad ↔ q.id = 0 ∨ (q.width < 1024 ∨ 32768 < q.width ∨ q.width % 32 ≠ 0)
      ∨ (q.height < 256 ∨ 32768 < q.height) ∨ q.bands.length ≠ (q.height + 255) / 256 ∨ (q.copies = 0 ∨ 8 < q.copies)
      ∨ (q.lead = 0 ∨ 16 < q.lead)
      ∨ (8 < q.stamps.length ∨ (q.stamps.any fun t => decide (31 < t.pattern)) = true) ∨ False := by
    simp only [PlateSpec.Bad, hany, or_assoc, or_false]
  rw [hbad, State.defineCheck, (plate?_none s q.id).mpr h, if_neg (by simp), if_neg hroom]
  iterate 7 apply check_cons
  exact ⟨False.elim, fun _ => rfl⟩

/-- Settles O12. -/
theorem plateDefineRefusals : Obligations.PlateDefineRefusals := by
  intro s m rest hm hk
  have hdef {x : Status} (hx : plateDefine m s = s.answer x []) : Answers .plateDefine s (s.replied m.tag rest x []) :=
    hm.answers (f := plateDefine) rfl hk hx
  refine ⟨fun hl => hdef ?_, fun q hq => ⟨fun he => ?_, fun hnew => ⟨fun hfull => ?_, fun hroom hbad => ?_⟩⟩⟩
  · simp only [plateDefine, plateDefineBody_none hl]
  · exact hdef (plateDefine_refused hq (defineCheck_exists he) (by decide))
  · exact hdef (plateDefine_refused hq (defineCheck_full hnew hfull) (by decide))
  · exact hdef (plateDefine_refused hq ((defineCheck_new hnew hroom).1 hbad) (by decide))

/-! ### PLATE DEFINE accepted -/

theorem addPlate_keeps_requests (s : State) (p : Plate) :
    (s.addPlate p).pins = s.pins ∧ (s.addPlate p).link.job = s.link.job
      ∧ (s.addPlate p).link.requests = s.link.requests ∧ (s.addPlate p).link.replies = s.link.replies := by
  unfold State.addPlate
  split <;> simp

theorem plate_complete_iff (q : PlateSpec) : q.plate.complete = true ↔ ∀ b ∈ q.bands, b.expected = 0 := by
  simp only [Plate.complete, PlateSpec.plate, List.all_map, List.all_eq_true]
  refine forall₂_congr fun b _ => ?_
  by_cases hb : b.expected = 0 <;> simp [BandSpec.band, hb, eq_comm]

/-- The layout of a PLATE DEFINE body (R189). -/
theorem plateDefineBody_layout {body : List Byte} (h : 11 ≤ body.length)
    (hl : body.length = 11 + 5 * field body 9 1 + 6 * field body 10 1) : ∃ q, plateDefineBody body = some q
      ∧ q.id = field body 0 2 ∧ q.width = field body 2 2 ∧ q.height = field body 4 2 ∧ q.copies = field body 6 1
      ∧ q.lead = field body 7 1 ∧ q.urgent = decide (field body 8 1 % 2 = 1)
      ∧ q.stamps.length = field body 9 1 ∧ q.bands.length = field body 10 1
      ∧ (∀ i, i < field body 9 1 → q.stamps[i]? = some (stampAt body (11 + 5 * i)))
      ∧ ∀ i, i < field body 10 1 → q.bands[i]? = some (bandSpecAt body (11 + 5 * field body 9 1 + 6 * i)) := by
  refine ⟨_, if_pos ⟨h, hl⟩, rfl, rfl, rfl, rfl, rfl, rfl, by simp, by simp, fun i hi => ?_, fun i hi => ?_⟩
  · simp [hi]
  · simp [hi]

/-- Settles O13. -/
theorem plateDefineAccepted : Obligations.PlateDefineAccepted := by
  refine ⟨fun body => ⟨plateDefineBody_none, plateDefineBody_layout⟩, ?_⟩
  intro s m rest q hm hk hq hnew hroom hid hw1 hw2 hw3 hh1 hh2 hb hc1 hc2 hl1 hl2 hs1 hs2
  have hgood : ¬q.Bad := by
    unfold PlateSpec.Bad
    have : ¬∃ t ∈ q.stamps, 31 < t.pattern := fun ⟨t, ht, hlt⟩ => Nat.not_lt.mpr (hs2 t ht) hlt
    simp only [this, or_false]
    omega
  obtain ⟨hp, hj, hr, ha⟩ := addPlate_keeps_requests s q.plate
  refine hm.does (f := plateDefine) rfl hk ?_
  simp only [plateDefine, hq, (defineCheck_new hnew hroom).2 hgood]
  rw [hm.answerOver (by rw [hp]) hj hr ha]
  simp only [encBE_one]
  unfold State.addPlate
  by_cases hblank : ∀ b ∈ q.bands, b.expected = 0
  · rw [if_pos ((plate_complete_iff q).mpr hblank), if_pos hblank]
    rfl
  · rw [if_neg (mt (plate_complete_iff q).mp hblank), if_neg hblank]
    rfl

/-! ### The place of a new plate -/

theorem mem_indexed_drop_one {l : List Nat} {x : Nat × Nat} (h : x ∈ (indexed l).drop 1) :
    1 ≤ x.1 ∧ l[x.1]? = some x.2 := by
  obtain ⟨i, hi⟩ := List.mem_iff_getElem?.mp h
  rw [List.getElem?_drop, indexed, List.getElem?_mapIdx, Option.map_eq_some_iff] at hi
  obtain ⟨a, ha, rfl⟩ := hi
  exact ⟨by omega, ha⟩

/-- Without a buffer-holding plate behind the head there is no last holder. -/
theorem lastHolder_none {s : State}
    (h : ∀ (k id : Nat), 1 ≤ k → s.table.queue[k]? = some id → s.holds id = false) : s.lastHolder = none := by
  have : ((indexed s.table.queue).drop 1).filter (fun q => s.holds q.2) = [] := by
    rw [List.filter_eq_nil_iff]
    intro x hx
    obtain ⟨h1, h2⟩ := mem_indexed_drop_one hx
    simp [h _ _ h1 h2]
  rw [State.lastHolder, this]
  rfl

/-- The last holder's place: a place behind the head that holds, with none that holds behind it. -/
theorem lastHolder_some {s : State} {k id : Nat} (hk : 1 ≤ k) (hid : s.table.queue[k]? = some id)
    (hh : s.holds id = true)
    (hl : ∀ (j id' : Nat), k < j → s.table.queue[j]? = some id' → s.holds id' = false) : s.lastHolder = some k := by
  have hlen : k < s.table.queue.length := (List.getElem?_eq_some_iff.mp hid).1
  have hsplit : (indexed s.table.queue).drop 1
      = ((indexed s.table.queue).drop 1).take (k - 1) ++ (k, id) :: (indexed s.table.queue).drop (k + 1) := by
    have hget : ((indexed s.table.queue).drop 1)[k - 1]? = some (k, id) := by
      rw [List.getElem?_drop, indexed, List.getElem?_mapIdx, Nat.add_sub_cancel' hk, hid]
      rfl
    have hdrop := List.drop_eq_getElem_cons (List.getElem?_eq_some_iff.mp hget).1
    have hrest : ((indexed s.table.queue).drop 1).drop (k - 1 + 1) = (indexed s.table.queue).drop (k + 1) := by
      rw [List.drop_drop]
      congr 1
      omega
    rw [(List.getElem?_eq_some_iff.mp hget).2, hrest] at hdrop
    rw [← hdrop]
    exact (List.take_append_drop _ _).symm
  have hafter : ((indexed s.table.queue).drop (k + 1)).filter (fun q => s.holds q.2) = [] := by
    rw [List.filter_eq_nil_iff]
    intro x hx
    obtain ⟨i, hi⟩ := List.mem_iff_getElem?.mp hx
    rw [List.getElem?_drop, indexed, List.getElem?_mapIdx, Option.map_eq_some_iff] at hi
    obtain ⟨a, ha, rfl⟩ := hi
    simp [hl _ _ (show k < k + 1 + i by omega) ha]
  rw [State.lastHolder, hsplit, List.filter_append, List.filter_cons_of_pos (by simpa using hh), hafter]
  simp

/-- Settles O14. -/
theorem placementOfNewPlate : Obligations.PlacementOfNewPlate := by
  intro s p
  refine ⟨fun hu => by simp [State.place, hu], fun hu hq => by simp [State.place, hu, hq], fun hu hq => ⟨fun hn => ?_,
    fun k id hk hid hh hl => ?_⟩⟩
  · simp [State.place, hu, hq, lastHolder_none hn]
  · simp [State.place, hu, hq, lastHolder_some hk hid hh hl]

/-! ### PLATE RELEASE -/

theorem live_iff (p : Plate) : p.live = true ↔ p.state = .loading ∨ p.state = .active := by simp [Plate.live]

theorem not_live_iff (p : Plate) : p.live = false ↔ p.state = .done ∨ p.state = .aborted ∨ p.state = .faulted := by
  cases h : p.state <;> simp [Plate.live, h]

/-- Settles O16. -/
theorem Settled.plateRelease : Obligations.PlateRelease := by
  intro s m rest hm hk id unlinked
  have hunlink : unlinked = Entry.unlink id := by
    funext e
    by_cases h : e.header.plate = id <;> simp [unlinked, Entry.unlink, h]
  refine ⟨fun hl => hm.answers (f := Machine.plateRelease) rfl hk (by simp only [Machine.plateRelease, plateIdBody_none hl]),
    fun hl => ?_⟩
  have hbody : plateIdBody m.body = some id := plateIdBody_of_length hl
  refine ⟨fun hn => ?_, fun p hp => ⟨fun hlive => ?_, fun hdead => ?_⟩⟩
  · exact hm.answers (f := Machine.plateRelease) rfl hk (by simp only [Machine.plateRelease, hbody, hn])
  · exact hm.answers (f := Machine.plateRelease) rfl hk (by
      simp only [Machine.plateRelease, hbody, hp, (live_iff p).mpr hlive, if_true])
  · have hdone : Machine.plateRelease m s = (s.removePlate id).answer .ok [] := by
      simp only [Machine.plateRelease, hbody, hp, (not_live_iff p).mpr hdead, Bool.false_eq_true, if_false]
    rw [hm.answerOver (by simp) (by simp) (by simp) (by simp)] at hdone
    refine ⟨_, hm.does rfl hk hdone, ?_⟩
    rw [hunlink]
    simp [State.replied, State.removePlate, Work.unlink]

/-! ### BAND QUERY -/

theorem bandBytes_layout (b : Band) (index : Nat) :
    let state : BitVec 8 := match b.state with
      | .blank => 0 | .empty => 1 | .filling => 2 | .ready => 3 | .exposing => 4 | .exposed => 5 | .starved => 6
    let flag (x : Bool) : BitVec 8 := if x then 1 else 0
    let signature (x : Option (BitVec 32)) : List (BitVec 8) :=
      match x with | none => [0, 0, 0, 0, 0] | some v => 1 :: encBE 4 v.toNat
    b.bytes index =
        [byteOf index, state, byteOf b.expected, byteOf b.nextSeq]
          ++ (match b.buffer with | none => [0, 0] | some n => [1, byteOf n])
          ++ [flag b.rendering, flag b.damaged] ++ signature b.expectedSig ++ signature b.lastSig := by
  intro state flag signature
  have hstate : byteOf b.state.pos = state := by
    cases h : b.state <;> simp only [state, h] <;> rfl
  have hsig (x : Option (BitVec 32)) : encOption 4 (x.map BitVec.toNat) = signature x := by cases x <;> rfl
  have hbuffer : encOption 1 b.buffer = match b.buffer with | none => [0, 0] | some n => [1, byteOf n] := by
    cases b.buffer
    · rfl
    · simp [encOption]
  rw [← hbuffer]
  simp [Band.bytes, hsig, ← hstate, encBool, flag]

theorem encOption_length (k : Nat) (x : Option Nat) : (encOption k x).length = k + 1 := by
  cases x <;> simp [encOption]

theorem bandBytes_length (b : Band) (index : Nat) : (b.bytes index).length = 18 := by
  simp [Band.bytes, encOption_length, encBool]

/-- The records of a run of bands, their number in front. -/
theorem queryBytes_eq (p : Plate) (first count : Nat) : p.queryBytes first count =
    byteOf (min count (p.bands.length - first))
      :: (((indexed p.bands).drop first).take count).flatMap fun r => r.2.bytes r.1 := by
  simp [Plate.queryBytes, indexed]

/-- Settles O18. -/
theorem Settled.bandQuery : Obligations.BandQuery := by
  refine ⟨fun b index => ⟨bandBytes_layout b index, bandBytes_length b index⟩, fun s m rest hm hk => ⟨fun hl => ?_,
    fun hl => ⟨fun hn => ?_, fun p hp => ⟨fun hbad => ?_, fun h1 h2 h3 => ?_⟩⟩⟩⟩
  · exact hm.answers (f := Machine.bandQuery) rfl hk (if_neg hl)
  · exact hm.answers (f := Machine.bandQuery) rfl hk (by simp only [Machine.bandQuery, if_pos hl, hn])
  · exact hm.answers (f := Machine.bandQuery) rfl hk (by simp only [Machine.bandQuery, if_pos hl, hp, if_pos hbad])
  · refine hm.answers (f := Machine.bandQuery) rfl hk ?_
    have hgood : ¬(field m.body 3 1 = 0 ∨ 32 < field m.body 3 1 ∨ p.bands.length ≤ field m.body 2 1) := by omega
    simp only [Machine.bandQuery, if_pos hl, hp, if_neg hgood, queryBytes_eq]

end Sys2Proof.Machine

/-! How segments, plates and the engine come to an end: the discarding and abandoning of segments (`SegmentsEnd`), the end
of a plate (`PlateEnds`), the closing of episodes and the stopping of the engine (`EngineStops`); and PLATE ABORT (O17). -/

namespace Sys2Proof.Machine

/-! ### The abandonment of the open segment -/

/-- What an abandonment leaves, field by field. -/
theorem abandon_eq {s : State} {seg : OpenSegment} (h : s.feed.intake = .assembling seg) (r : Abandon) (i : Intake) :
    (s.abandon r i).segs = ⟨released (moveEntries (fun _ => true) .assembling .dead s.segs.queue), s.segs.writePos⟩
      ∧ (s.abandon r i).screens = returnUse seg.header s.screens ∧ (s.abandon r i).feed.intake = i
      ∧ (s.abandon r i).feed.buffer = (if seg.writing = none then s.feed.buffer else s.feed.buffer.drop 1)
      ∧ (s.abandon r i).feed.counters = s.feed.counters
      ∧ (s.abandon r i).arbiter = s.arbiter.dropIntake
      ∧ (s.abandon r i).link
        = (s.post (.segmentAbandoned seg.header.plate seg.header.band seg.header.seq seg.received r)).link := by
  unfold State.abandon
  rw [h]
  dsimp only
  have hnone : seg.writing.isSome = false ↔ seg.writing = none := by simp
  rw [releaseRing_segs]
  cases hw : seg.writing <;> simp <;> rfl

theorem openedOf_some {s : State} {which : Header → Bool} {seg : OpenSegment} (h : s.openedOf which = some seg) :
    s.feed.intake = .assembling seg ∧ which seg.header = true := by
  unfold State.openedOf at h
  split at h
  next x hx =>
    split at h
    next hw => cases h; exact ⟨hx, hw⟩
    · cases h
  all_goals cases h

theorem interrupt_some {s : State} {which : Header → Bool} {seg : OpenSegment} (h : s.openedOf which = some seg) :
    s.interrupt which = s.abandon .interrupted .skipping := by
  obtain ⟨hi, hw⟩ := openedOf_some h
  exact if_pos (by simp only [State.openMatches, hi, hw])

theorem interrupt_none {s : State} {which : Header → Bool} (h : s.openedOf which = none) : s.interrupt which = s := by
  refine if_neg ?_
  cases hi : s.feed.intake with
  | assembling seg =>
    simp only [State.openedOf, hi] at h
    simp only [State.openMatches, hi]
    intro hw
    simp [hw] at h
  | unselected => simp [State.openMatches, hi]
  | selected => simp [State.openMatches, hi]
  | skipping => simp [State.openMatches, hi]

theorem openedOf_of_intake {s u : State} (h : u.feed.intake = s.feed.intake) (which : Header → Bool) :
    u.openedOf which = s.openedOf which := by simp only [State.openedOf, h]

/-- What the abandonment at a plate or band event tells. -/
theorem interrupt_link (s : State) (which : Header → Bool) : (s.interrupt which).link = (s.tellInterrupted which).link := by
  unfold State.tellInterrupted
  split
  next seg h =>
    rw [interrupt_some h]
    exact (abandon_eq (openedOf_some h).1 _ _).2.2.2.2.2.2
  next h => rw [interrupt_none h]

theorem tellInterrupted_link {s u : State} (hi : u.feed.intake = s.feed.intake) (hl : u.link = s.link)
    (which : Header → Bool) : (u.tellInterrupted which).link = (s.tellInterrupted which).link := by
  unfold State.tellInterrupted
  rw [openedOf_of_intake hi]
  split
  · simp [State.post, hl]
  · exact hl

theorem interrupt_counters (s : State) (which : Header → Bool) :
    (s.interrupt which).feed.counters = s.feed.counters := by
  unfold State.interrupt
  split
  · exact (abandon_feed s _ _).1
  · rfl

/-! ### The end of segments -/

/-- An entry after the discarding of those linked ones whose header satisfies `which`, and after the abandonment of the
open segment where one is `opened`. -/
theorem moveEntries_twice (which : Header → Bool) (opened : Prop) [Decidable opened] (q : List Entry) :
    (if opened then moveEntries (fun _ => true) .assembling .dead
        (moveEntries (fun e => e.linked && which e.header) .queued .dead q)
      else moveEntries (fun e => e.linked && which e.header) .queued .dead q)
    = q.map fun e => if decide (e.state = .queued ∧ e.linked = true ∧ which e.header = true
        ∨ opened ∧ e.state = .assembling) = true then { e with state := .dead } else e := by
  split
  next ho =>
    unfold moveEntries
    rw [List.map_map]
    refine List.map_congr_left fun e _ => ?_
    by_cases hq : e.state = .queued
    · by_cases hw : e.linked = true ∧ which e.header = true <;> simp [hq, hw]
    · by_cases ha : e.state = .assembling <;> simp [hq, ha, ho]
  next ho =>
    refine List.map_congr_left fun e _ => ?_
    simp [ho]

theorem released_released (q : List Entry) : released (released q) = released q := List.dropWhile_idempotent _ _

/-- Segments end where their QUEUED entries are discarded, the open segment is abandoned where it is one of them, and ring
release acts; `x` is the state between the two, which may differ from the first elsewhere. -/
theorem segmentsEnd_of {s x : State} {which : Header → Bool}
    (hsegs : x.segs = (s.discard fun e => e.linked && which e.header).segs)
    (hscreens : x.screens = (s.discard fun e => e.linked && which e.header).screens)
    (hfeed : x.feed.intake = s.feed.intake ∧ x.feed.buffer = s.feed.buffer)
    (harbiter : x.arbiter = s.arbiter) : SegmentsEnd s (x.interrupt which).releaseRing which := by
  have hsegs' : x.segs = ⟨moveEntries (fun e => e.linked && which e.header) .queued .dead s.segs.queue, s.segs.writePos⟩ := hsegs
  have hmove := moveEntries_twice which (s.openedOf which ≠ none) s.segs.queue
  have huse (n : Nat) (a : ScreenSet) (ha : s.screens[n]? = some a) : x.screens[n]? = some { a with
      useCount := a.useCount
        - (s.ending which).countP fun e => decide (e.header.kind = .tone ∧ e.header.screen = n) } := by
    rw [hscreens, State.discard, withSegs_screens, withScreens_screens, returnUses, ha]
    simp [State.queuedOf, State.ending]
  rcases ho : s.openedOf which with _ | seg
  · rw [interrupt_none ((openedOf_of_intake hfeed.1 which).trans ho)]
    rw [if_neg (by simp [ho])] at hmove
    refine ⟨?_, fun n a ha => ?_, fun _ => ⟨?_, ?_, ?_⟩, fun seg hseg => ?_⟩
    · rw [releaseRing_segs, hsegs']
      simp only [hmove]
    · rw [ho]
      simpa using huse n a ha
    · simp [hfeed.1]
    · simp [hfeed.2]
    · simpa using harbiter
    · rw [ho] at hseg; cases hseg
  · have hox := (openedOf_of_intake hfeed.1 which).trans ho
    obtain ⟨h1, h2, h3, h4, _, h5, _⟩ := abandon_eq (openedOf_some hox).1 .interrupted .skipping
    rw [interrupt_some hox]
    rw [if_pos (by simp [ho])] at hmove
    refine ⟨?_, fun n a ha => ?_, fun hn => ?_, fun y hy => ?_⟩
    · rw [releaseRing_segs, h1, hsegs', released_released]
      simp only [hmove]
    · rw [(releaseRing_frame _).2.2.2.2.2.2.1, h2, returnUse_get, huse n a ha, ho]
      rfl
    · rw [ho] at hn; cases hn
    · rw [ho] at hy
      cases hy
      refine ⟨?_, ?_, ?_⟩
      · simp [h3]
      · simp only [releaseRing_feed, h4, hfeed.2]
      · simp only [releaseRing_frame, h5, harbiter]
        rfl

/-! ### The end of a plate -/

theorem queuedOf_ofPlate (s : State) (id : Nat) : s.queuedOf (ofPlate id) = s.ending fun h => decide (h.plate = id) := by
  refine List.filter_congr fun e _ => ?_
  by_cases h : e.state = .queued <;> by_cases h' : e.linked = true <;> simp [ofPlate, h, h']

/-- The record of a plate changed, found by its id. -/
theorem plate?_modPlate_self {s : State} {p : Plate} {f : Plate → Plate} (hf : ∀ p, (f p).id = p.id)
    (hp : s.plate? p.id = some p) : (s.modPlate p.id f).plate? p.id = some (f p) := by
  rw [plate?_modPlate hf, hp]
  simp

theorem endPlate_plate? (s : State) (p : Plate) (x : PlateState) (c : Bool) (id : Nat) :
    (s.endPlate p x c).plate? id = (s.plate? id).map fun q => if id = p.id then { q with
      state := x, authorised := false, bands := q.bands.map Band.ended,
      late := satAdd q.late (if c then (s.queuedOf (ofPlate p.id)).length else 0) } else q := by
  rw [← plate?_modPlate (f := fun q => { q with
      state := x, authorised := false, bands := q.bands.map Band.ended,
      late := satAdd q.late (if c then (s.queuedOf (ofPlate p.id)).length else 0) }) (fun _ => rfl)]
  simp [State.plate?, endPlate_table, State.modPlate]

theorem endPlate_link (s : State) (p : Plate) (x : PlateState) (c : Bool) :
    (s.endPlate p x c).link = (s.tellInterrupted fun h => decide (h.plate = p.id)).link := by
  unfold State.endPlate
  simp only [releaseRing_frame, interrupt_link]
  exact tellInterrupted_link (by simp [State.returnBuffers, State.leaveQueue, State.modPlate])
    (by simp [State.returnBuffers, State.leaveQueue, State.modPlate]) _

theorem endPlate_counters (s : State) (p : Plate) (x : PlateState) (c : Bool) :
    (s.endPlate p x c).feed.counters = s.feed.counters := by
  unfold State.endPlate
  simp [interrupt_counters]

/-- A plate ends as R8, R19 and R57 say; the state `s'` in which the end begins agrees with `s` but for the engine and the
damage of the plate. -/
theorem endPlate_ends {s s' : State} {p : Plate} (x : PlateState) (c : Bool) (hsegs : s'.segs = s.segs)
    (hscreens : s'.screens = s.screens) (hfeed : s'.feed = s.feed) (harbiter : s'.arbiter = s.arbiter)
    (hpool : s'.pool = s.pool) (hqueue : s'.table.queue = s.table.queue)
    (hp : ∃ d n, s'.plate? p.id = some { p with damage := d, overflow := n })
    (hother : ∀ id, id ≠ p.id → s'.plate? id = s.plate? id) :
    PlateEnds s (s'.endPlate p x c) p x (if c then (s.ending fun h => decide (h.plate = p.id)).length else 0) := by
  obtain ⟨d, n, hp⟩ := hp
  refine ⟨?_, ?_, fun id hid => ?_, ?_, ?_⟩
  · simp [endPlate_table, hqueue]
  · rw [endPlate_plate?, hp]
    simp [queuedOf_ofPlate, State.ending, hsegs, satAdd]
    exact fun _ _ => rfl
  · rw [endPlate_plate?, hother id hid]
    simp [hid]
  · rw [endPlate_pool, hpool]
    rfl
  · refine segmentsEnd_of ?_ ?_ ⟨?_, ?_⟩ ?_
    · simp [State.discard, State.returnBuffers, State.leaveQueue, State.modPlate, hsegs]
      rfl
    · simp [State.discard, State.returnBuffers, State.leaveQueue, State.modPlate, hsegs, hscreens, State.queuedOf, ofPlate]
    · simp [State.returnBuffers, State.leaveQueue, State.modPlate, hfeed]
    · simp [State.returnBuffers, State.leaveQueue, State.modPlate, hfeed]
    · simp [State.returnBuffers, State.leaveQueue, State.modPlate, harbiter]

/-! ### The closing of episodes -/

/-- A record closed with its episode: its last line raised to `v`, never past `top`. -/
def DamageRecord.closed (top v : Nat) (r : DamageRecord) : DamageRecord :=
  { r with last := min top (max r.last v), opened := some false }

/-- The damage table as an episode closes: the record it is linked to is closed with it. -/
def closeIn (top v : Nat) (d : List DamageRecord) (e : Episode) : List DamageRecord :=
  match e with
  | .opened (some i) => d.modify i (.closed top v)
  | .opened none | .closed => d

theorem closeRecord_plate? (s : State) (id : Nat) (e : Episode) (v id' : Nat) :
    (s.closeRecord id e v).plate? id' = (s.plate? id').map fun p =>
      if id' = id then { p with damage := closeIn (p.height - 1) v p.damage e } else p := by
  have hsame : s.plate? id' = (s.plate? id').map fun p => if id' = id then { p with damage := p.damage } else p := by
    simp
  rcases e with _ | _ | i
  · exact hsame
  · exact hsame
  · unfold State.closeRecord State.extendRecord
    rcases hp : s.plate? id with _ | p
    · by_cases hid : id' = id
      · subst hid; simp [hp]
      · simp [hid]
    · refine (plate?_modPlate (f := fun q => { q with damage := q.damage.modify i (.closed (p.height - 1) v) })
        (fun _ => rfl) id').trans ?_
      by_cases hid : id' = id
      · subst hid
        simp only [hp, Option.map_some, if_true]
        rfl
      · simp [hid]

/-- The episodes of the monitor, in the order in which they close. -/
def Monitor.episodes (m : Monitor) : List Episode := [m.power.b0, m.power.b1, m.power.b2, m.power.b3, m.blind]

theorem closeEpisodes_plate? {s : State} {t : Taken} (ht : s.engine.taken = some t) (id : Nat) :
    s.closeEpisodes.plate? id = (s.plate? id).map fun p => if id = t.plate then
      { p with damage := s.monitor.episodes.foldl (closeIn (p.height - 1) (4 * s.engine.swath - 1)) p.damage } else p := by
  unfold State.closeEpisodes
  rw [ht]
  simp only [beams, List.foldl_cons, List.foldl_nil]
  rw [plate?_of_table (u := State.withMonitor _ _) (withMonitor_table _ _)]
  simp only [closeRecord_plate?, Option.map_map]
  refine Option.map_congr fun p _ => ?_
  by_cases hid : id = t.plate
  · simp [hid, Monitor.episodes, PerBeam.get]
  · simp [hid]

theorem closeIn_length (top v : Nat) (d : List DamageRecord) (e : Episode) : (closeIn top v d e).length = d.length := by
  unfold closeIn
  split <;> simp

theorem closeAll_length (top v : Nat) (l : List Episode) (d : List DamageRecord) :
    (l.foldl (closeIn top v) d).length = d.length := by
  induction l generalizing d with
  | nil => rfl
  | cons e l ih => rw [List.foldl_cons, ih, closeIn_length]

theorem closeRecord_queue (s : State) (id : Nat) (e : Episode) (v : Nat) :
    (s.closeRecord id e v).table.queue = s.table.queue := by
  unfold State.closeRecord State.extendRecord
  split
  · rfl
  · split
    · rfl
    · rfl

theorem closeEpisodes_queue (s : State) : s.closeEpisodes.table.queue = s.table.queue := by
  unfold State.closeEpisodes
  split
  · simp [beams, closeRecord_queue]
  · rfl

/-! ### The stopping of the engine -/

theorem stopEngine_engine (s : State) : s.stopEngine.engine = s.engine.stop := by simp [State.stopEngine, State.laserOff]

theorem stopEngine_monitor {s : State} {t : Taken} (ht : s.engine.taken = some t) : s.stopEngine.monitor =
    { s.monitor with
      activity := .idle, step := .none, power := ⟨.closed, .closed, .closed, .closed⟩, blind := .closed } := by
  simp [State.stopEngine, State.laserOff, State.closeEpisodes, ht, Monitor.stopped, PerBeam.all]

theorem closeRecord_withPins (s : State) (x : Pins) (id : Nat) (e : Episode) (v : Nat) :
    (s.withPins x).closeRecord id e v = (s.closeRecord id e v).withPins x := by
  rcases e with _ | _ | i
  · rfl
  · rfl
  · unfold State.closeRecord State.extendRecord
    rw [plate?_of_table (s := s) (u := s.withPins x) rfl]
    cases s.plate? id <;> rfl

/-- The closing of episodes does not look at the pins. -/
theorem closeEpisodes_withPins (s : State) (x : Pins) : (s.withPins x).closeEpisodes = s.closeEpisodes.withPins x := by
  unfold State.closeEpisodes
  rw [withPins_engine]
  cases s.engine.taken with
  | none => rfl
  | some t =>
    simp only [beams, List.foldl_cons, List.foldl_nil, closeRecord_withPins, withPins_monitor]
    rfl

/-- The table after the engine has stopped is that after the closing of episodes. -/
theorem stopEngine_table (s : State) : s.stopEngine.table = s.closeEpisodes.table := by
  simp only [State.stopEngine, State.laserOff, closeEpisodes_withPins, withEngine_table, withMarks_table,
    withMonitor_table, withPins_table]

theorem stopEngine_plate? (s : State) (id : Nat) : s.stopEngine.plate? id = s.closeEpisodes.plate? id :=
  plate?_of_table (stopEngine_table s) id

/-- The engine, having taken a plate, stops and enters IDLE. -/
theorem engineStops_of {s u : State} {t : Taken} (ht : s.engine.taken = some t) (hpins : u.pins = s.stopEngine.pins)
    (hengine : u.engine = s.stopEngine.enterIdle.engine) (hmonitor : u.monitor = s.stopEngine.monitor)
    (hmarks : u.marks = s.stopEngine.marks) : EngineStops s u := by
  refine ⟨?_, ?_, ?_, ?_⟩
  · rw [hpins]
    simp [State.stopEngine, State.laserOff]
  · rw [hengine]
    simp [State.enterIdle, stopEngine_engine, Engine.stop]
  · rw [hmonitor, stopEngine_monitor ht]
  · rw [hmarks]
    rfl

/-- The record of the plate taken after the engine has stopped: closing its episodes changes its damage table only. -/
theorem stopEngine_taken_plate? {s : State} {t : Taken} {p : Plate} (ht : s.engine.taken = some t)
    (hid : t.plate = p.id) (hp : s.plate? p.id = some p) : ∃ d, s.closeEpisodes.plate? p.id = some { p with damage := d }
      ∧ s.stopEngine.plate? p.id = some { p with damage := d } ∧ d.length = p.damage.length := by
  have hclose := closeEpisodes_plate? ht p.id
  rw [hid, hp] at hclose
  simp only [Option.map_some, if_true] at hclose
  exact ⟨_, hclose, (stopEngine_plate? s p.id).trans hclose, closeAll_length _ _ _ _⟩

/-- The other records stand as the engine stops. -/
theorem stopEngine_other_plate? {s : State} {t : Taken} (ht : s.engine.taken = some t) {id : Nat} (hid : id ≠ t.plate) :
    s.stopEngine.plate? id = s.plate? id := by
  rw [stopEngine_plate?, closeEpisodes_plate? ht]
  simp [hid]

theorem stopEngine_queue (s : State) : s.stopEngine.table.queue = s.table.queue := by
  rw [stopEngine_table, closeEpisodes_queue]

/-! ### PLATE ABORT -/

/-- What an aborted plate leaves beside its end. -/
structure AbortFrame (s u : State) (p : Plate) : Prop where
  link : u.link = (s.tellInterrupted fun h => decide (h.plate = p.id)).link
  counters : u.feed.counters = s.feed.counters
  decoder : u.decoder = s.decoder
  screener : u.screener = s.screener
  stamps : u.stamps = s.stamps
  memory : u.memory = s.memory
  reset : u.pins.resetAsserted = s.pins.resetAsserted

/-- The plate taken is aborted: the engine stops and enters IDLE. -/
theorem abort_taken {s : State} {t : Taken} {p : Plate} (ht : s.engine.taken = some t) (hid : t.plate = p.id)
    (hp : s.plate? p.id = some p) : ∃ u : State, s.abortPlate p = u.takeHead
      ∧ PlateEnds s u p .aborted (s.ending fun h => decide (h.plate = p.id)).length ∧ EngineStops s u
      ∧ (u.plate? p.id).map Plate.damage = (s.closeEpisodes.plate? p.id).map Plate.damage
      ∧ (u.plate? p.id).map Plate.overflow = some p.overflow ∧ AbortFrame s u p := by
  obtain ⟨d, hclose, hstop, _⟩ := stopEngine_taken_plate? ht hid hp
  have hu : (s.stopEngine.endPlate p .aborted true).enterIdle.plate? p.id = _ :=
    endPlate_plate? s.stopEngine p .aborted true p.id
  rw [hstop] at hu
  refine ⟨(s.stopEngine.endPlate p .aborted true).enterIdle, if_pos (by simp [State.hasTaken, ht, hid]), ?_, ?_, ?_, ?_,
    ?_, ?_, ?_, ?_, ?_, ?_, ?_⟩
  · exact endPlate_ends .aborted true (by simp) (by simp) (by simp) (by simp) (by simp) (stopEngine_queue s)
      ⟨d, p.overflow, hstop⟩ fun id h => stopEngine_other_plate? ht (hid ▸ h)
  · refine engineStops_of ht ?_ ?_ ?_ ?_ <;> simp [State.enterIdle]
  · rw [hu, hclose]
    simp
  · rw [hu]
    simp
  · simp only [State.enterIdle, withEngine_link, endPlate_link]
    exact tellInterrupted_link (by simp) (by simp) _
  · simp [State.enterIdle, endPlate_counters]
  all_goals simp [State.enterIdle, State.stopEngine, State.laserOff]

/-- A plate that the engine has not taken is aborted: the engine is untouched. -/
theorem abort_waiting {s : State} {p : Plate} (ht : s.engine.taken.map Taken.plate ≠ some p.id)
    (hp : s.plate? p.id = some p) : ∃ u : State, s.abortPlate p = u.takeHead
      ∧ PlateEnds s u p .aborted (s.ending fun h => decide (h.plate = p.id)).length
      ∧ (u.engine = s.engine ∧ u.pins = s.pins ∧ u.monitor = s.monitor ∧ u.marks = s.marks
        ∧ (u.plate? p.id).map Plate.damage = some p.damage)
      ∧ (u.plate? p.id).map Plate.overflow = some p.overflow ∧ AbortFrame s u p := by
  have hu := endPlate_plate? s p .aborted true p.id
  rw [hp] at hu
  refine ⟨s.endPlate p .aborted true, if_neg (by simpa [State.hasTaken] using ht), ?_,
    ⟨by simp, by simp, by simp, by simp, ?_⟩, ?_, ⟨endPlate_link s p _ _, endPlate_counters s p _ _, by simp, by simp,
    by simp, by simp, by simp⟩⟩
  · exact endPlate_ends .aborted true rfl rfl rfl rfl rfl rfl ⟨p.damage, p.overflow, hp⟩ fun _ _ => rfl
  · rw [hu]
    simp
  · rw [hu]
    simp

/-- Settles O17. -/
theorem Settled.plateAbort : Obligations.PlateAbort := by
  intro s m rest hm hk
  refine ⟨fun hl => hm.answers (f := Machine.plateAbort) rfl hk (by simp only [Machine.plateAbort, plateIdBody_none hl]),
    fun hl => ?_⟩
  have hbody := plateIdBody_of_length hl
  refine ⟨fun hn => ?_, fun p hp => ⟨fun hdead => ?_, fun hlive => ?_⟩⟩
  · exact hm.answers (f := Machine.plateAbort) rfl hk (by simp only [Machine.plateAbort, hbody, hn])
  · exact hm.answers (f := Machine.plateAbort) rfl hk (by
      simp only [Machine.plateAbort, hbody, hp, (not_live_iff p).mpr hdead, Bool.false_eq_true, if_false])
  · have hdone : Machine.plateAbort m s = (s.abortPlate p).answer .ok [] := by
      simp only [Machine.plateAbort, hbody, hp, (live_iff p).mpr hlive, if_true]
    have hself : s.plate? p.id = some p := by rw [(plate?_some hp).1, hp]
    have hanswer {u : State} (hu : s.abortPlate p = u.takeHead) (hf : AbortFrame s u p) :
        Answers .plateAbort s (u.takeHead.replied m.tag rest .ok []) := by
      have hpins : (s.abortPlate p).pins.resetAsserted = s.pins.resetAsserted := by simp [hu, hf.reset]
      have hanswer := hm.answerOver hpins (by simp) (by simp) (by simp) .ok []
      exact hm.does (f := Machine.plateAbort) rfl hk (hdone.trans (hu ▸ hanswer))
    by_cases ht : s.engine.taken.map Taken.plate = some p.id
    · obtain ⟨t, ht', hid⟩ := Option.map_eq_some_iff.mp ht
      obtain ⟨u, hu, hends, hstops, hdamage, hover, hf⟩ := abort_taken ht' hid hself
      exact ⟨u, hanswer hu hf, hends, fun _ => ⟨hstops, hdamage⟩, fun hn => absurd ht hn, hover, hf.link, hf.counters,
        hf.decoder, hf.screener, hf.stamps, hf.memory⟩
    · obtain ⟨u, hu, hends, hsame, hover, hf⟩ := abort_waiting ht hself
      exact ⟨u, hanswer hu hf, hends, fun h => absurd h ht, fun _ => hsame, hover, hf.link, hf.counters,
        hf.decoder, hf.screener, hf.stamps, hf.memory⟩

end Sys2Proof.Machine

/-! The page feed: the line receiver (O19, O20), FEED HOLD and INTAKE STALL (O21), abandonment and ring release (O22), and the
frames taken by the intake (O23 to O29). -/

namespace Sys2Proof.Machine

/-! ### The line receiver -/

/-- Settles O19. -/
theorem frameArrivalStart : Obligations.FrameArrivalStart := by
  intro kind length s hr hb space level
  have hdue : decide (s.feed.receiver = .between) = true := by simp [hb]
  refine ⟨fun h => ?_, fun h => ?_⟩
  · have hroom : s.feed.hasRoom length.toNat = true :=
      decide_eq_true (show frameLevel s.feed.buffer + frameSpace length.toNat ≤ frameBufferSize from h)
    exact answers_eventWhen (f := fun s => s.frameStart kind length.toNat) rfl hr hdue (if_pos hroom)
  · have hroom : ¬s.feed.hasRoom length.toNat = true := fun hc => Nat.not_le.mpr h (of_decide_eq_true hc)
    exact answers_eventWhen (f := fun s => s.frameStart kind length.toNat) rfl hr hdue (if_neg hroom)

/-- Of the frames in the buffer only the one still arriving, at the tail, takes a new content. -/
theorem settleArriving_tail (g : Byte → Nat → FrameItem) {items : List FrameItem} (k : Byte) (n : Nat)
    (h : ∀ x ∈ items, ∀ k' n', x ≠ .frame k' n' .arriving) :
    settleArriving g (items ++ [.frame k n .arriving]) = items ++ [g k n] := by
  unfold settleArriving
  rw [List.map_append]
  congr 1
  refine (List.map_congr_left (g := id) fun x hx => ?_).trans (List.map_id _)
  rcases x with ⟨k', n', _ | body | _⟩ | _
  · exact absurd rfl (h _ hx k' n')
  all_goals rfl

theorem lengthSuits_iff (k : Byte) (n : Nat) : lengthSuits k n = true ↔
    k = 1 ∧ n = 2 ∨ k = 2 ∧ n = 27 ∨ k = 3 ∧ 1 ≤ n ∧ n ≤ 4096 ∨ k = 4 ∧ n = 4 := by
  unfold lengthSuits kindSelect kindOpen kindData kindClose
  split_ifs with h1 h2 h3 h4
  · subst h1; simp
  · subst h2; simp
  · subst h3; simp
  · subst h4; simp
  · simp_all

/-- When a received frame is good (R21), every condition written out. -/
theorem receivedContent_eq (k : Byte) (body : List Byte) (crc : Crc16) : receivedContent k body crc =
    if crc16 (k :: encBE 2 body.length ++ body) = crc
        ∧ (k = 1 ∧ body.length = 2 ∨ k = 2 ∧ body.length = 27
          ∨ k = 3 ∧ 1 ≤ body.length ∧ body.length ≤ 4096 ∨ k = 4 ∧ body.length = 4)
      then .good body else .checkError := by
  unfold receivedContent
  refine if_congr ?_ rfl rfl
  rw [frameGood, Bool.and_eq_true, decide_eq_true_eq, lengthSuits_iff]

/-- Settles O20. -/
theorem frameEnds : Obligations.FrameEnds := by
  intro body crc s hr
  have hend {f : Feed} (hw : s.feed.receiver.endsWith body.length = true) (hf : s.feed.endFrame body crc = f) :
      Answers (.frameArrivalEnd body crc) s (s.withFeed f) :=
    answers_eventWhen (f := fun s => s.withFeed (s.feed.endFrame body crc)) rfl hr hw (congrArg s.withFeed hf)
  have hcut {f : Feed} (hw : s.feed.receiver ≠ .between) (hf : s.feed.cutFrame = f) :
      Answers .feedFrameGap s (s.withFeed f).testHold :=
    answers_eventWhen (f := fun s => (s.withFeed s.feed.cutFrame).testHold) rfl hr (by simpa using hw)
      (congrArg (fun f => (s.withFeed f).testHold) hf)
  refine ⟨fun kind items k n h hb ha => ?_, fun kind items k n h hb ha => ?_, fun h => ?_, fun length hl h => ?_,
    fun items k n h hb ha => ?_, fun length h => ?_, fun h => ⟨?_, ?_⟩⟩
  · refine hend (by simp [h, FeedReceiver.endsWith]) ?_
    simp only [Feed.endFrame, h, hb, settleArriving_tail _ k n ha, receivedContent_eq]
  · refine hend (by simp [h, FeedReceiver.endsWith]) ?_
    simp only [Feed.endFrame, h, hb, settleArriving_tail _ k n ha]
  · exact hend (by simp [h, FeedReceiver.endsWith]) (by simp only [Feed.endFrame, h])
  · refine ignored_eventWhen (f := fun s => s.withFeed (s.feed.endFrame body crc)) rfl ?_
    rcases h with ⟨kind, h | h⟩ | h <;> simp [h, FeedReceiver.endsWith, hl]
  · obtain ⟨kind, length, h⟩ := h
    refine hcut (by rcases h with h | h <;> simp [h]) ?_
    rcases h with h | h <;> simp only [Feed.cutFrame, h, hb, settleArriving_tail _ k n ha]
  · exact hcut (by simp [h]) (by simp only [Feed.cutFrame, h])
  · exact ignored_eventWhen (f := fun s => (s.withFeed s.feed.cutFrame).testHold) rfl (by simp [h])
  · exact ignored_eventWhen (f := fun s => s.withFeed (s.feed.endFrame body crc)) rfl
      (by simp [h, FeedReceiver.endsWith])

/-! ### FEED HOLD and INTAKE STALL -/

theorem takeWhile_ne_length (l : List Nat) (id : Nat) : (l.takeWhile fun q => !decide (q = id)).length = l.idxOf id := by
  induction l with
  | nil => rfl
  | cons a r ih =>
    rw [List.takeWhile_cons, List.idxOf_cons]
    by_cases h : a = id
    · simp [h]
    · simp [h, ih, beq_eq_false_iff_ne.mpr h]

theorem position_eq (s : State) (id : Nat) :
    s.position id = if id ∈ s.table.queue then s.table.queue.idxOf id + 1 else 0 := by
  rw [State.position, takeWhile_ne_length]

theorem stalled_iff (s : State) : s.stalled = true ↔ s.feed.hold = true ∧ s.feed.stallArmed = true ∧ s.decoder = none
    ∧ s.screener = none ∧ ∀ x ∈ s.segs.queue, s.eligible x = false := by
  simp [State.stalled, and_assoc]

/-- Settles O21. -/
theorem feedHoldMarks : Obligations.FeedHoldMarks := by
  refine ⟨fun s => ⟨fun e he h1 h2 h3 h4 h5 => ?_, fun h => ?_⟩, fun s => ?_⟩
  · have hs := (stalled_iff s).mpr ⟨h1, h2, h3, h4, h5⟩
    rw [State.testStall, he]
    simp only [hs, if_true, position_eq]
    rfl
  · unfold State.testStall
    split
    · rfl
    next e he =>
      refine if_neg fun hs => ?_
      obtain ⟨h1, h2, h3, h4, h5⟩ := (stalled_iff s).mp hs
      rcases h with h | h | h | h | h | ⟨x, hx, h⟩
      · rw [he] at h; cases h
      · rw [h1] at h; cases h
      · rw [h2] at h; cases h
      · exact h h3
      · exact h h4
      · rw [h5 x hx] at h; cases h
  · intro level entries hold
    have hhold : holdAfter s.feed.hold (frameLevel s.feed.buffer) s.segs.queue.length s.freeRing = hold := by
      simp only [holdAfter, holdReleased, holdWanted, mib, hold, level, entries, frameLevel]
      split <;> simp [Bool.or_assoc] <;> rfl
    unfold State.testHold
    rw [hhold]
    cases h1 : s.feed.hold <;> cases hold <;> cases s.feed.stallArmed <;> simp

/-! ### Abandonment and ring release -/

theorem finished_iff (e : Entry) : e.finished = true ↔ e.state = .rendered ∨ e.state = .dead := by
  simp [Entry.finished]

/-- Settles O22. -/
theorem segmentAbandoned : Obligations.SegmentAbandoned := by
  refine ⟨fun s reason next => ⟨fun seg h => ?_, fun h => (abandon_feed s reason next).2.2.2.2.2 h⟩, fun s =>
    ⟨fun h => by simp [State.releaseRing, h, releaseFrom], fun e rest h => ⟨fun he => ?_, fun h1 h2 => ?_⟩⟩, fun s => rfl⟩
  · intro s1 s2
    simp only [State.abandon, h, moveEntries, and_true]
    rfl
  · rw [State.releaseRing, h, releaseFrom, if_pos ((finished_iff e).mpr he)]
    rfl
  · rw [State.releaseRing, h, releaseFrom, if_neg (by simp [finished_iff, h1, h2])]

/-! ### How a frame is taken -/

theorem State.HeadFrame.good {s : State} {kind : Byte} {n : Nat} {body : List Byte} {rest : List FrameItem}
    (h : s.HeadFrame kind n body rest) : s.goodFrame kind = some body := by
  obtain ⟨_, hb, hw⟩ := h
  simp [State.goodFrame, hb, hw]

/-- A good frame at the head of the frame buffer is taken by the command of its kind. -/
theorem State.HeadFrame.does {s : State} {kind : Byte} {n : Nat} {body : List Byte} {rest : List FrameItem}
    (h : s.HeadFrame kind n body rest) {c : Instr} {f : List Byte → State → State} (hc : exec c s = s.takeFrame kind f)
    {t : State} (ht : f body s = t) : Answers c s t := by
  rw [Answers, hc, State.takeFrame, h.good, ← ht]
  exact event_taken s _ h.1

/-- A frame finished at the head of the buffer. -/
theorem finishFrame_withFeed {s : State} {f : Feed} {i : FrameItem} {rest : List FrameItem} (h : f.buffer = i :: rest) :
    (s.withFeed f).finishFrame = (s.withFeed { f with buffer := rest }).testHold := by
  simp [State.finishFrame, h]

theorem finishFrame_head {s : State} {i : FrameItem} {rest : List FrameItem} (h : s.feed.buffer = i :: rest) :
    s.finishFrame = (s.withFeed { s.feed with buffer := rest }).testHold := by
  simp [State.finishFrame, h]

theorem setIntake_self {s : State} {i : Intake} (h : s.feed.intake = i) : s.setIntake i = s := by
  subst h
  rfl

theorem abandon_of_no_segment {s : State} (h : ∀ seg, s.feed.intake ≠ .assembling seg) (r : Abandon) (i : Intake) :
    s.abandon r i = s := (abandon_feed s r i).2.2.2.2.2 h

/-- After the abandonment of an open segment no entry is ASSEMBLING. -/
theorem abandon_no_assembling {s : State} {seg : OpenSegment} (h : s.feed.intake = .assembling seg) (r : Abandon)
    (i : Intake) : ∀ e ∈ (s.abandon r i).segs.queue, e.state ≠ .assembling := by
  intro e he
  rw [(abandon_eq h r i).1] at he
  obtain ⟨x, _, rfl⟩ := List.mem_map.mp ((List.dropWhile_suffix _).subset he)
  by_cases hx : x.state = .assembling <;> simp [hx]

/-- Settles O23. -/
theorem selectTaken : Obligations.SelectTaken := by
  intro s n body rest h next
  have hdoes {t : State} (ht : takeSelect body s = t) : Answers .selectFrame s t := h.does (f := takeSelect) rfl ht
  have hselect : takeSelect body s = ((s.abandon .interrupted next).setIntake next).finishFrame := rfl
  obtain ⟨_, hbuffer, hwriting⟩ := h
  refine ⟨fun hn => hdoes ?_, fun ⟨seg, hseg⟩ => ?_⟩
  · rw [hselect, abandon_of_no_segment hn]
    exact finishFrame_withFeed (f := { s.feed with intake := next }) hbuffer
  · obtain ⟨hcounters, _, _, hkeeps, hintake, _⟩ := abandon_feed s .interrupted next
    refine ⟨hdoes (by rw [hselect, setIntake_self (hintake seg hseg)]), ?_, ?_, ?_, ?_⟩
    · rw [finishFrame_intake, hintake seg hseg]
    · rw [finishFrame_buffer, hkeeps hwriting, hbuffer]
      rfl
    · rw [finishFrame_counters, hcounters]
    · simpa using abandon_no_assembling hseg .interrupted next

/-! ### OPEN -/

theorem segKind_tone_iff (r : RawHeader) : r.segKind? = some .tone ↔ r.kind = 2 := by
  unfold RawHeader.segKind?
  split_ifs with h1 h2
  · simp [h1]
  · simp [h2]
  · exact ⟨fun h => absurd h (by simp), fun h => absurd h h2⟩

theorem badParam_iff (r : RawHeader) : r.badParam = true ↔
    (r.kind ≠ 1 ∧ r.kind ≠ 2) ∨ (r.mode ≠ 0 ∧ r.mode ≠ 1) ∨ r.w = 0 ∨ 32768 < r.w ∨ r.h = 0 ∨ 256 < r.h
      ∨ r.declared = 0 ∨ 16777216 < r.declared
      ∨ (r.kind = 2 ∧ (r.sw = 0 ∨ 4096 < r.sw ∨ r.sh = 0 ∨ 4096 < r.sh ∨ r.declared ≠ r.sw * r.sh ∨ 7 < r.screen
        ∨ r.checkPresent = true)) := by
  have hkind : r.segKind?.isNone = true ↔ r.kind ≠ 1 ∧ r.kind ≠ 2 := by
    unfold RawHeader.segKind?
    split_ifs <;> simp_all
  have hmode : r.paintMode?.isNone = true ↔ r.mode ≠ 0 ∧ r.mode ≠ 1 := by
    unfold RawHeader.paintMode?
    split_ifs <;> simp_all
  simp only [RawHeader.badParam, Bool.or_eq_true, Bool.and_eq_true, decide_eq_true_eq, hkind, hmode, segKind_tone_iff,
    or_assoc]

theorem liveTwin_iff (s : State) (r : RawHeader) : s.liveTwin r = true ↔ ∃ e ∈ s.segs.queue,
    (e.state = .assembling ∨ e.state = .queued ∨ e.state = .rendering)
      ∧ e.header.plate = r.plate ∧ e.header.band = r.band ∧ e.header.seq = r.seq := by
  simp [State.liveTwin, Entry.live, and_assoc, or_assoc]

/-- Settles O24. -/
theorem openChecks : Obligations.OpenChecks := by
  intro s r
  refine ⟨fun h => ?_, fun p hp hlive => ⟨fun hb => ?_, fun b hb => ?_⟩⟩
  · unfold State.openCheck
    split
    · rfl
    next p hp => rw [(not_live_iff p).mpr (h p hp)]; rfl
  · simp only [State.openCheck, hp, (live_iff p).mpr hlive, List.getElem?_eq_none hb]
    rfl
  · simp only [State.openCheck, hp, (live_iff p).mpr hlive, hb]
    rw [if_neg (by simp)]
    refine if_congr Iff.rfl rfl (if_congr Iff.rfl rfl (if_congr ?_ rfl (if_congr Iff.rfl rfl (if_congr ?_ rfl
      (if_congr ?_ rfl (if_congr Iff.rfl rfl rfl))))))
    · rw [liveTwin_iff]
    · exact badParam_iff r
    · rw [segKind_tone_iff, Option.isNone_iff_eq_none]

/-- An OPEN that passes every check names a segment kind and a paint mode. -/
theorem openCheck_none_modes {s : State} {r : RawHeader} (h : s.openCheck r = none) :
    ∃ kind mode, r.segKind? = some kind ∧ r.paintMode? = some mode := by
  have hgood : r.badParam = false := by
    unfold State.openCheck at h
    cases hp : s.plate? r.plate with
    | none => simp [hp] at h
    | some p =>
      cases hb : p.bands[r.band]? with
      | none =>
        simp only [hp, hb] at h
        split_ifs at h
      | some b =>
        simp only [hp, hb] at h
        split_ifs at h
        simpa using ‹¬r.badParam = true›
  simp only [RawHeader.badParam, Bool.or_eq_false_iff, Option.isNone_eq_false_iff] at hgood
  obtain ⟨⟨⟨⟨⟨hkind, hmode⟩, _⟩, _⟩, _⟩, _⟩ := hgood
  obtain ⟨kind, hkind⟩ := Option.isSome_iff_exists.mp hkind
  obtain ⟨mode, hmode⟩ := Option.isSome_iff_exists.mp hmode
  exact ⟨kind, mode, hkind, hmode⟩

theorem tryOpen_refused {s : State} {r : RawHeader} {reason : Refuse} (h : s.openCheck r = some reason) :
    s.tryOpen r = s.refuseOpen r reason := by simp only [State.tryOpen, h]

theorem tryOpen_accepted {s : State} {r : RawHeader} {kind : SegKind} {mode : PaintMode} (h : s.openCheck r = none)
    (hk : r.segKind? = some kind) (hm : r.paintMode? = some mode) : s.tryOpen r = s.acceptOpen (r.toHeader kind mode) := by
  simp only [State.tryOpen, h, hk, hm]

/-- A refusal but DUP: counted, told, and for LATE counted in the plate (R29). -/
theorem refuseOpen_told (s : State) (r : RawHeader) {reason : Refuse} (h : reason ≠ .dup) : s.refuseOpen r reason =
    ((if reason = .late then s.modPlate r.plate fun p => { p with late := min (p.late + 1) 65535 } else s).post
      (.segmentRefused r.plate r.band r.seq r.kind reason)).withFeed { s.feed with
        intake := .skipping
        counters := { s.feed.counters with refusals := min (s.feed.counters.refusals + 1) 65535 } } := by
  cases reason with
  | dup => exact absurd rfl h
  | _ => rfl

/-- Settles O25. -/
theorem openTaken : Obligations.OpenTaken := by
  refine ⟨fun body => rfl, fun r kind mode => ⟨rfl, rfl, rfl, fun h => by subst h; exact ⟨rfl, rfl, rfl⟩⟩,
    fun s n body rest h => ?_⟩
  intro r
  refine ⟨fun hi => ?_, fun ⟨seg, hseg⟩ => ?_, fun hi => ?_⟩
  · refine h.does (f := takeOpen) rfl ?_
    have hignored : takeOpen body s = s.finishFrame := by simp only [takeOpen, hi]
    exact hignored.trans (finishFrame_head h.2.1)
  · obtain ⟨_, _, _, hkeeps, hintake, _⟩ := abandon_feed s .interrupted .selected
    have hsel := hintake seg hseg
    have hhead : (s.abandon .interrupted .selected).HeadFrame 2 n body rest :=
      ⟨by simpa using h.1, by rw [hkeeps h.2.2]; exact h.2.1, by rw [hsel]; rfl⟩
    refine ⟨?_, hhead, hsel⟩
    have h1 : Answers .openFrame s _ := h.does (f := takeOpen) rfl rfl
    have h2 : Answers .openFrame (s.abandon .interrupted .selected) _ := hhead.does (f := takeOpen) rfl rfl
    rw [h1, h2]
    simp only [takeOpen, hseg, hsel]
  · have hopen {t : State} (ht : (s.tryOpen r).finishFrame = t) : Answers .openFrame s t := by
      refine h.does (f := takeOpen) rfl ?_
      rcases hi with hi | hi <;> simpa only [takeOpen, hi] using ht
    refine ⟨fun hc => hopen ?_, fun reason hc hd => hopen ?_, fun hc => ?_⟩
    · rw [tryOpen_refused hc]
      exact finishFrame_withFeed h.2.1
    · rw [tryOpen_refused hc, refuseOpen_told s r hd]
      exact finishFrame_withFeed h.2.1
    · obtain ⟨kind, mode, hkind, hmode⟩ := openCheck_none_modes hc
      refine ⟨kind, mode, hkind, hmode, hopen ?_⟩
      rw [tryOpen_accepted hc hkind hmode]
      cases kind <;> rfl

/-! ### DATA, CLOSE, bad frames and FEED CLEAR -/

/-- A frame counted stray and finished. -/
theorem stray_finished {s : State} {i : FrameItem} {rest : List FrameItem} (h : s.feed.buffer = i :: rest) :
    s.stray.finishFrame = (s.withFeed { s.feed with
      buffer := rest, counters := { s.feed.counters with strays := min (s.feed.counters.strays + 1) 65535 } }).testHold :=
  finishFrame_withFeed (f := { s.feed with
    counters := { s.feed.counters with strays := satAdd s.feed.counters.strays 1 } }) h

/-- Settles O26. -/
theorem dataTaken : Obligations.DataTaken := by
  intro s n body rest h
  have hdoes {t : State} (ht : takeData body s = t) : Answers .dataFrame s t := h.does (f := takeData) rfl ht
  refine ⟨fun seg hi => ⟨fun hl => hdoes ?_, fun hl => hdoes ?_⟩, fun hi => hdoes ?_, fun hi => hdoes ?_⟩
  · simp only [takeData, hi, if_pos hl]
    rfl
  · simp only [takeData, hi, if_neg (Nat.not_le.mpr hl)]
  · have hstray : takeData body s = s.stray.finishFrame := by simp only [takeData, hi]
    exact hstray.trans (stray_finished h.2.1)
  · have hignored : takeData body s = s.finishFrame := by rcases hi with hi | hi <;> simp only [takeData, hi]
    exact hignored.trans (finishFrame_head h.2.1)

/-- Settles O27. -/
theorem closeTaken : Obligations.CloseTaken := by
  intro s n body rest h
  have hdoes {t : State} (ht : takeClose body s = t) : Answers .closeFrame s t := h.does (f := takeClose) rfl ht
  refine ⟨fun seg hi => ⟨fun hl => hdoes ?_, fun hl hc => hdoes ?_, fun hl hc => hdoes ?_⟩, fun hi => hdoes ?_,
    fun hi => hdoes ?_⟩
  · simp only [takeClose, hi, if_pos hl]
  · have hc' : crc32Final seg.check ≠ BitVec.ofNat 32 (field body 0 4) := hc
    simp only [takeClose, hi, if_neg (not_not.mpr hl), if_pos hc']
  · have hc' : ¬crc32Final seg.check ≠ BitVec.ofNat 32 (field body 0 4) := not_not.mpr hc
    simp only [takeClose, hi, if_neg (not_not.mpr hl), if_neg hc', State.completeSegment, State.setIntake, moveEntries,
      and_true]
    exact finishFrame_withFeed h.2.1
  · have hstray : takeClose body s = s.stray.finishFrame := by simp only [takeClose, hi]
    exact hstray.trans (stray_finished h.2.1)
  · have hignored : takeClose body s = s.finishFrame := by rcases hi with hi | hi <;> simp only [takeClose, hi]
    exact hignored.trans (finishFrame_head h.2.1)

/-- A check-error frame at the head is taken. -/
theorem checkErrorFrame_does {s : State} {kind : Byte} {n : Nat} {rest : List FrameItem} (hr : s.pins.resetAsserted = false)
    (hw : s.feed.intake.writing = false) (hb : s.feed.buffer = .frame kind n .checkError :: rest) {t : State}
    (ht : takeBadFrame kind s = t) : Answers .checkErrorFrame s t := by
  have hbad : s.badFrame = some kind := by simp [State.badFrame, hb, hw]
  refine answers_event (f := takeBadFrame kind) ?_ hr ht
  simp only [exec, execCheckErrorFrame, hbad]

/-- Settles O28. -/
theorem badFrameTaken : Obligations.BadFrameTaken := by
  intro s hr hw
  refine ⟨fun kind n rest hb => ?_, fun rest hb => ⟨fun ⟨seg, hi⟩ => ?_, fun hi => ?_⟩⟩
  · intro counted
    have hcounted : takeBadFrame kind s = (if kind = 1 then
        ((s.withFeed { s.feed with counters := counted }).abandon .check .unselected).setIntake .unselected
      else (s.withFeed { s.feed with counters := counted }).abandon .check .skipping).finishFrame := rfl
    refine ⟨fun ⟨seg, hi⟩ => checkErrorFrame_does hr hw hb ?_, fun hi => checkErrorFrame_does hr hw hb ?_⟩
    · rw [hcounted]
      by_cases hk : kind = 1
      · rw [if_pos hk, if_pos hk, setIntake_self
          ((abandon_feed (s.withFeed { s.feed with counters := counted }) .check .unselected).2.2.2.2.1 seg hi)]
      · rw [if_neg hk, if_neg hk]
    · have hi' : ∀ seg, (s.withFeed { s.feed with counters := counted }).feed.intake ≠ .assembling seg := hi
      rw [hcounted, abandon_of_no_segment hi', abandon_of_no_segment hi']
      by_cases hk : kind = 1
      · rw [if_pos hk, if_pos hk]
        exact finishFrame_withFeed (f := { s.feed with intake := .unselected, counters := counted }) hb
      · rw [if_neg hk, if_neg hk]
        exact finishFrame_withFeed (f := { s.feed with counters := counted }) hb
  · refine answers_eventWhen (f := takeLoss) rfl hr (by simp [State.lossDue, hb, hw]) ?_
    rw [takeLoss, setIntake_self ((abandon_feed _ _ _).2.2.2.2.1 seg hi)]
  · refine answers_eventWhen (f := takeLoss) rfl hr (by simp [State.lossDue, hb, hw]) ?_
    rw [takeLoss, abandon_of_no_segment hi]
    exact finishFrame_withFeed (f := { s.feed with intake := .unselected }) hb

/-- Settles O29. -/
theorem Settled.feedClear : Obligations.FeedClear := by
  intro s m rest hm hk
  refine ⟨fun hb => hm.does (f := Machine.feedClear) rfl hk ((if_pos hb).trans ?_), fun hb =>
    hm.answers (f := Machine.feedClear) rfl hk (if_neg hb)⟩
  exact hm.answerOver (u := s.count fun _ => .zero) rfl rfl rfl rfl .ok _

end Sys2Proof.Machine

/-! The requests that load a screen set: SCREEN BEGIN (O33), SCREEN TABLE (O34), SCREEN END (O35). -/

namespace Sys2Proof.Machine

/-! ### SCREEN BEGIN -/

theorem coefficientOk_iff (a : Int) : coefficientOk a = true ↔ -1048576 ≤ a ∧ a ≤ 1048575 := by simp [coefficientOk]

theorem inRange_iff (p : ScreenParams) : p.inRange = true ↔
    (p.cell = 16 ∨ p.cell = 32 ∨ p.cell = 64 ∨ p.cell = 128)
      ∧ ((-1048576 ≤ p.ux ∧ p.ux ≤ 1048575) ∧ (-1048576 ≤ p.uy ∧ p.uy ≤ 1048575)
        ∧ (-1048576 ≤ p.vx ∧ p.vx ≤ 1048575) ∧ (-1048576 ≤ p.vy ∧ p.vy ≤ 1048575))
      ∧ ∀ c ∈ p.curve, c ≤ 4095 := by
  simp [ScreenParams.inRange, coefficientOk_iff, and_assoc]

theorem forall_lt_four {P : Nat → Prop} : (∀ i < 4, P i) ↔ P 0 ∧ P 1 ∧ P 2 ∧ P 3 :=
  ⟨fun h => ⟨h 0 (by decide), h 1 (by decide), h 2 (by decide), h 3 (by decide)⟩, fun ⟨h0, h1, h2, h3⟩ i hi => by
    match i, hi with
    | 0, _ => exact h0
    | 1, _ => exact h1
    | 2, _ => exact h2
    | 3, _ => exact h3⟩

/-- Settles O33. -/
theorem Settled.screenBegin : Obligations.ScreenBegin := by
  intro s m rest hm hk h8 n cell a curve
  let q : ScreenParams := ⟨cell, a 0, a 1, a 2, a 3, curve, 0⟩
  have hrefuse {x : Status} (hx : Machine.screenBegin m s = s.answer x []) :
      Answers .screenBegin s (s.replied m.tag rest x []) := hm.answers (f := Machine.screenBegin) rfl hk hx
  have hbody (hl : m.body.length = 52) : screenBeginBody m.body = some (n, q) := if_pos hl
  refine ⟨fun h => hrefuse ?_, fun hl x hx => ⟨fun hu => hrefuse ?_, fun hu => ?_⟩⟩
  · by_cases hl : m.body.length = 52
    · have hn : s.set? n = none := List.getElem?_eq_none (by omega)
      simp only [Machine.screenBegin, hbody hl, hn]
    · simp only [Machine.screenBegin, screenBeginBody, if_neg hl]
  · have hset : s.set? n = some x := hx
    simp only [Machine.screenBegin, hbody hl, hset, if_pos hu]
  · intro good
    have hset : s.set? n = some x := hx
    have hgood : q.inRange = true ↔ good := by rw [inRange_iff, ← forall_lt_four (P := fun i => -1048576 ≤ a i ∧ a i ≤ 1048575)]
    have hdef : Machine.screenBegin m s =
        if q.inRange then (s.setScreen n (.loading q)).answer .ok [] else s.answer .badArg [] := by
      simp only [Machine.screenBegin, hbody hl, hset, if_neg (show ¬0 < x.useCount by omega)]
    refine ⟨fun hb => hrefuse (hdef.trans (if_neg (mt hgood.mp hb))), fun hb => ?_⟩
    refine hm.does (f := Machine.screenBegin) rfl hk ((hdef.trans (if_pos (hgood.mpr hb))).trans ?_)
    exact hm.answerOver (u := s.setScreen n (.loading q)) rfl rfl rfl rfl .ok []

/-! ### SCREEN TABLE -/

theorem screenTableForm_iff (body : List Byte) : screenTableForm body = true ↔
    5 ≤ body.length ∧ field body 0 1 ≤ 7 ∧ 1 ≤ field body 3 2 ∧ field body 3 2 ≤ 1024
      ∧ body.length = 5 + 2 * field body 3 2 := by
  simp [screenTableForm, and_assoc]

theorem runValues_bad_iff (l : List Nat) : (l.any fun v => decide (v = 0) || decide (4095 < v)) = true ↔
    ∃ v ∈ l, v = 0 ∨ 4095 < v := by simp

theorem modify_eq_set {α : Type} {l : List α} {n : Nat} {x : α} (f : α → α) (h : l[n]? = some x) :
    l.modify n f = l.set n (f x) := by
  refine List.ext_getElem? fun i => ?_
  rw [List.getElem?_modify, List.getElem?_set]
  by_cases hi : n = i
  · subst hi
    obtain ⟨hlen, hx⟩ := List.getElem?_eq_some_iff.mp h
    simp [hlen, hx]
  · simp [hi]

/-- Settles O34. -/
theorem Settled.screenTable : Obligations.ScreenTable := by
  refine ⟨fun s m rest hm hk => ?_, fun s j m rest k hj hq => ⟨fun hk => ?_, fun hk p u hp => ?_⟩⟩
  · intro n first count values form
    have hform : screenTableForm m.body = true ↔ form := screenTableForm_iff m.body
    have hrefuse {x : Status} {r : List Byte} (hx : Machine.screenTable m s = s.answer x r) :
        Answers .screenTable s (s.replied m.tag rest x r) := hm.answers (f := Machine.screenTable) rfl hk hx
    refine ⟨fun hf => hrefuse (if_neg (mt hform.mp hf)), fun hf => ?_⟩
    have hgo : Machine.screenTable m s = _ := if_pos (hform.mpr hf)
    refine ⟨fun hn => hrefuse (hgo.trans ?_), fun p hp => ?_⟩
    · have hn' : ∀ p, (s.set? n).map ScreenSet.state ≠ some (.loading p) := hn
      split
      next p hp => exact absurd hp (hn' p)
      all_goals rfl
    · have hp' : (s.set? n).map ScreenSet.state = some (.loading p) := hp
      have hdef : Machine.screenTable m s =
          if first ≠ p.fill then s.answer .badSeq (encBE 2 p.fill)
          else if p.cell * p.cell < first + count then s.answer .badArg []
          else if (values.any fun v => decide (v = 0) || decide (4095 < v)) = true then s.answer .badArg []
          else s.withLink { s.link with job := some ⟨n, first, m.body.drop 5, 0⟩ } := by
        rw [hgo, hp']
        rfl
      refine ⟨fun h1 => hrefuse (hdef.trans (if_pos h1)), fun h1 h2 => hrefuse (hdef.trans ?_), fun h1 h2 h3 => ?_⟩
      · rw [if_neg (not_not.mpr h1)]
        by_cases hroom : p.cell * p.cell < first + count
        · exact if_pos hroom
        · rw [if_neg hroom]
          exact if_pos ((runValues_bad_iff values).mpr (h2.resolve_left hroom))
      · refine hm.does (f := Machine.screenTable) rfl hk (hdef.trans ?_)
        rw [if_neg (not_not.mpr h1), if_neg (Nat.not_lt.mpr h2)]
        refine if_neg fun hb => ?_
        obtain ⟨v, hv, hbad⟩ := (runValues_bad_iff values).mp hb
        have := h3 v hv
        omega
  · simp only [State.tableBurstDone, hj]
    exact if_pos hk
  · have hdone : ¬j.written + k < j.bytes.length := by omega
    simp only [State.tableBurstDone, hj, if_neg hdone]
    rw [modify_eq_set _ hp]
    simp [State.answer, Link.answer, hq, ScreenState.filled]

/-! ### SCREEN END -/

/-- Settles O35. -/
theorem Settled.screenEnd : Obligations.ScreenEnd := by
  intro s m rest hm hk n
  have hrefuse {x : Status} {r : List Byte} (hx : Machine.screenEnd m s = s.answer x r) :
      Answers .screenEnd s (s.replied m.tag rest x r) := hm.answers (f := Machine.screenEnd) rfl hk hx
  refine ⟨fun h => hrefuse (if_neg (by omega)), fun hl hn => ?_⟩
  have hgo : Machine.screenEnd m s = _ := if_pos ⟨hl, hn⟩
  refine ⟨fun hs => hrefuse (hgo.trans ?_), fun p u hp => ?_⟩
  · have hs' : ∀ p, (s.set? n).map ScreenSet.state ≠ some (.loading p) := hs
    split
    next p hp => exact absurd hp (hs' p)
    all_goals rfl
  · have hp' : (s.set? n).map ScreenSet.state = some (.loading p) := by
      rw [show s.set? n = s.screens[n]? from rfl, hp]
      rfl
    have hdef : Machine.screenEnd m s =
        if p.fill = p.cell * p.cell then (s.setScreen n (.ready p)).answer .ok []
        else s.answer .incomplete (encBE 2 p.fill ++ encBE 2 (p.cell * p.cell)) := by
      rw [hgo, hp']
    refine ⟨fun hf => ?_, fun hf => hrefuse (hdef.trans (if_neg (Nat.ne_of_lt hf)))⟩
    refine hm.does (f := Machine.screenEnd) rfl hk ((hdef.trans (if_pos hf)).trans ?_)
    rw [hm.answerOver (u := s.setScreen n (.ready p)) rfl rfl rfl rfl .ok [], State.setScreen, modify_eq_set _ hp]

end Sys2Proof.Machine

/-! The exposure monitor: the step of a clamp gap (O46), the ends of the steps (O47, O48), and its requests (O49 to O51). -/

namespace Sys2Proof.Machine

/-! ### The choice of a beam -/

/-- A beam chosen above a cursor: of the set, above the cursor, and the lowest such. -/
theorem beamAbove_some_iff : ∀ (set : BitVec 4) (after : Option (Fin 4)) (k : Fin 4), beamAbove set after = some k ↔
    (set.getLsbD k = true ∧ ∀ c, after = some c → c < k)
      ∧ ∀ j : Fin 4, (set.getLsbD j = true ∧ ∀ c, after = some c → c < j) → k ≤ j := by
  decide +kernel

theorem beamAbove_none_iff (set : BitVec 4) (after : Option (Fin 4)) :
    beamAbove set after = none ↔ ∀ k : Fin 4, ¬(set.getLsbD k = true ∧ ∀ c, after = some c → c < k) := by
  have hmem (k : Fin 4) : k ∈ beams := by revert k; decide
  unfold beamAbove
  rw [List.find?_eq_none]
  refine ⟨fun h k hk => h k (hmem k) ?_, fun h k _ hk => h k ?_⟩
  · rw [Bool.and_eq_true]
    refine ⟨hk.1, ?_⟩
    cases after with
    | none => rfl
    | some c => exact decide_eq_true (hk.2 c rfl)
  · rw [Bool.and_eq_true] at hk
    refine ⟨hk.1, fun c hc => ?_⟩
    subst hc
    exact of_decide_eq_true hk.2

/-- The beam of a gap: the lowest enabled one above the cursor, or the lowest enabled one where none is above it. -/
theorem nextBeam_eq {s : State} {k : Fin 4} (hk : s.engine.active.beams.getLsbD k = true)
    (h : ((∀ c, s.monitor.cursor = some c → c < k) ∧ ∀ j : Fin 4, s.engine.active.beams.getLsbD j = true →
        (∀ c, s.monitor.cursor = some c → c < j) → k ≤ j)
      ∨ ∀ j : Fin 4, s.engine.active.beams.getLsbD j = true → ¬(∀ c, s.monitor.cursor = some c → c < j) ∧ k ≤ j) :
    s.nextBeam = some k := by
  unfold State.nextBeam
  rcases h with ⟨habove, hlow⟩ | hnone
  · rw [(beamAbove_some_iff _ _ k).mpr ⟨⟨hk, habove⟩, fun j hj => hlow j hj.1 hj.2⟩]
  · rw [(beamAbove_none_iff _ _).mpr fun j hj => (hnone j hj.1).1 hj.2]
    exact (beamAbove_some_iff _ none k).mpr ⟨⟨hk, fun c hc => by cases hc⟩, fun j hj => (hnone j hj.1).2⟩

theorem nextBeam_none {s : State} (h : s.engine.active.beams = 0) : s.nextBeam = none := by
  have hnone (after : Option (Fin 4)) : beamAbove s.engine.active.beams after = none := by
    rw [beamAbove_none_iff, h]
    exact fun k hk => absurd hk.1 (by simp)
  simp only [State.nextBeam, hnone]

/-- Settles O46. -/
theorem gapSchedule : Obligations.GapSchedule := by
  intro s begun n above
  refine ⟨fun h => ?_, fun href hn => ⟨fun h0 => ?_, fun k hk h => ?_⟩⟩
  · unfold State.openGap
    rcases h with h | ⟨h, hn⟩
    · rw [if_pos h]
      rfl
    · rw [if_neg h]
      exact if_pos hn
  · unfold State.openGap
    rw [if_neg href]
    refine (if_neg hn).trans ?_
    rw [nextBeam_none (s := s.withMonitor { s.monitor with revolutions := s.monitor.revolutions + 1 }) h0]
  · unfold State.openGap
    rw [if_neg href]
    refine (if_neg hn).trans ?_
    rw [nextBeam_eq (s := s.withMonitor { s.monitor with revolutions := s.monitor.revolutions + 1 }) hk h]
    rfl

/-! ### The progress of a scan -/

theorem scanning_iff (a : Activity) : a.scanning = true ↔ a = .scanSingle ∨ a = .scanContinuous := by
  cases a <;> simp [Activity.scanning]

theorem scanNext_cases (s : State) :
    let begun (step : Step) (cursor : Option (Fin 4)) : State := s.withMonitor { s.monitor with
      step := step, stepSwath := s.engine.swath, stepGate := s.engine.active.gate, gateCounter := 0, pulseCounter := 0
      cursor := cursor }
    let above (k : Fin 4) : Prop := s.monitor.scanSet.getLsbD k = true ∧ ∀ c, s.monitor.cursor = some c → c < k
    (∀ k, above k → (∀ j, above j → k ≤ j) → s.scanNext = begun (.beam k) (some k))
    ∧ ((∀ k, ¬above k) → s.monitor.activity = .scanContinuous → s.scanNext = begun .ref none)
    ∧ ((∀ k, ¬above k) → s.monitor.activity ≠ .scanContinuous →
      s.scanNext = s.withMonitor { s.monitor with activity := .idle, step := .none }) := by
  intro begun above
  refine ⟨fun k hk hlow => ?_, fun h ha => ?_, fun h ha => ?_⟩
  · rw [State.scanNext, (beamAbove_some_iff _ _ k).mpr ⟨hk, hlow⟩]
    rfl
  · rw [State.scanNext, (beamAbove_none_iff _ _).mpr h]
    exact if_pos ha
  · rw [State.scanNext, (beamAbove_none_iff _ _).mpr h]
    exact if_neg ha

/-! ### The end of a REF step -/

theorem recordIndex_eq {s : State} {p : Plate} (hp : s.plate? p.id = some p) :
    s.recordIndex p.id = if p.damage.length < 64 then some p.damage.length else none := by
  simp only [State.recordIndex, hp]

theorem takenPlate?_eq {s : State} {t : Taken} {p : Plate} (ht : s.engine.taken = some t)
    (hp : s.plate? t.plate = some p) : s.takenPlate? = some (t, p) := by
  simp [State.takenPlate?, ht, hp]

theorem after_eq (o : RefOutcome) (n1 gate : Nat) :
    Reference.after o n1 gate = if o = .valid then .valid n1 gate else .invalid := by
  cases o <;> rfl

/-- A VALID REF step with the BLIND episode closed changes nothing. -/
theorem blindSuccess_closed {s : State} (p : Plate) (h : s.monitor.blind = .closed) : s.blindSuccess p = s := by
  have hself : { s.monitor with blind := .closed } = s.monitor := by rw [← h]
  simp only [State.blindSuccess, h, State.closeRecord, hself, withMonitor_self]

/-- Settles O47. -/
theorem refStepEnd : Obligations.RefStepEnd := by
  refine ⟨fun pulses s hr hs => answers_eventWhen rfl hr (decide_eq_true hs) rfl, fun s outcome ticks n1 => ?_,
    scanNext_cases⟩
  intro m scanning judged
  have hjudged : s.endRef outcome ticks n1 =
      if m.activity.scanning then judged.scanAfterRef outcome else judged.judgeRef outcome n1 := by
    simp only [State.endRef, after_eq]
    rfl
  refine ⟨fun hs ho => ?_, fun hs ho => ?_, fun hs t p ht hp => ?_⟩
  · rw [hjudged, if_pos ((scanning_iff _).mpr hs)]
    exact if_pos ho
  · rw [hjudged, if_pos ((scanning_iff _).mpr hs)]
    exact if_neg ho
  · rw [if_neg (mt (scanning_iff _).mp hs)] at hjudged
    have htaken : judged.takenPlate? = some (t, p) := takenPlate?_eq (s := judged) ht hp
    rw [State.judgeRef, htaken] at hjudged
    have hself : judged.plate? p.id = some p := by rw [(plate?_some hp).1]; exact hp
    refine ⟨fun ho hb => ?_, fun link ho hb => ?_, fun link ho hb => ?_, fun ho hb => ?_⟩
    · rw [hjudged]
      exact (if_pos ho).trans (blindSuccess_closed p hb)
    · rw [hjudged]
      refine (if_pos ho).trans ?_
      have hb' : judged.monitor.blind = .opened link := hb
      simp only [State.blindSuccess, hb']
      rfl
    · rw [hjudged]
      refine (if_neg ho).trans ?_
      have hb' : judged.monitor.blind = .opened link := hb
      simp only [State.blindFailure, hb']
      rfl
    · rw [hjudged]
      refine (if_neg ho).trans ?_
      have hb' : judged.monitor.blind = .closed := hb
      simp only [State.blindFailure, hb', recordIndex_eq hself, addMarked_frame]
      rfl

/-! ### The end of a BEAM step -/

theorem measuring_eq {s : State} {k : Fin 4} {n1 gate : Nat} (hs : s.monitor.step = .beam k)
    (href : s.monitor.reference = .valid n1 gate) : s.measuring = some (k, n1) := by
  simp [State.measuring, hs, Step.beam?, Monitor.valid?, href]

/-- The judging of a reading changes the POWER episodes alone. -/
theorem judgeEpisode_monitor (s : State) (t : Taken) (p : Plate) (k : Fin 4) (x : BeamStatus) (y : Option Nat) :
    (s.judgeEpisode t p k x y).monitor.beamTable = s.monitor.beamTable
      ∧ (s.judgeEpisode t p k x y).monitor.refTable = s.monitor.refTable
      ∧ (s.judgeEpisode t p k x y).monitor.reference = s.monitor.reference
      ∧ (s.judgeEpisode t p k x y).monitor.step = s.monitor.step := by
  unfold State.judgeEpisode
  dsimp only
  split
  · simp [State.setPower]
  · split <;> simp [State.setPower]

/-- What a BEAM step's end leaves in the monitor: the reading alone in the table, no step in an exposure. -/
theorem endBeam_monitor {s : State} {k : Fin 4} {n1 gate : Nat} (href : s.monitor.reference = .valid n1 gate)
    (ticks pulses : Nat) (n2 : Option Nat) :
    (s.endBeam k ticks pulses n2).monitor.beamTable = s.monitor.beamTable.set k (some ⟨n2.map (powerIndex gate),
        beamStatus (s.engine.active.windows.get k) (n2.map (powerIndex gate)), s.monitor.source⟩)
      ∧ (s.endBeam k ticks pulses n2).monitor.refTable = s.monitor.refTable
      ∧ (s.endBeam k ticks pulses n2).monitor.reference = s.monitor.reference
      ∧ (s.monitor.activity = .exposure → (s.endBeam k ticks pulses n2).monitor.step = .none) := by
  have hvalid : s.monitor.valid? = some (n1, gate) := by simp [Monitor.valid?, href]
  simp only [State.endBeam, hvalid]
  split
  next hscan =>
    have hexp : s.monitor.activity ≠ .exposure := fun h => by simp [h, Activity.scanning] at hscan
    simp only [State.scanAfterBeam, State.scanNext]
    refine ⟨?_, ?_, ?_, fun h => absurd h hexp⟩
    all_goals
      split
      · simp [State.beamGap, State.beginStep, Monitor.endStep]
      · split
        · simp [State.scanRef, State.beginStep, Monitor.endStep]
        · simp [Monitor.stopped, Monitor.endStep]
  · unfold State.judge
    split
    · simp [judgeEpisode_monitor, Monitor.endStep]
    · simp [Monitor.endStep]

/-- A BEAM step's end leaves the engine, the pool, the segment queue and plate memory, and INTAKE STALL's test the monitor. -/
theorem beamStep_frame {s : State} {k : Fin 4} {n1 gate : Nat} (href : s.monitor.reference = .valid n1 gate)
    (ticks pulses : Nat) (n2 : Option Nat) :
    let t := (s.endBeam k ticks pulses n2).testStall
    t.monitor.beamTable = s.monitor.beamTable.set k (some ⟨n2.map (powerIndex gate),
        beamStatus (s.engine.active.windows.get k) (n2.map (powerIndex gate)), s.monitor.source⟩)
      ∧ t.monitor.refTable = s.monitor.refTable ∧ t.monitor.reference = s.monitor.reference ∧ t.engine = s.engine
      ∧ t.pool = s.pool ∧ t.segs = s.segs ∧ t.memory = s.memory
      ∧ (s.monitor.activity = .exposure → t.monitor.step = .none) := by
  obtain ⟨h1, h2, h3, h4⟩ := endBeam_monitor (k := k) href ticks pulses n2
  intro t
  refine ⟨?_, ?_, ?_, ?_, ?_, ?_, ?_, fun h => ?_⟩
  · simpa [t] using h1
  · simpa [t] using h2
  · simpa [t] using h3
  · simp [t]
  · simp [t]
  · simp [t]
  · simp [t]
  · simpa [t] using h4 h

theorem lastReading_iff (m : Monitor) (k : Fin 4) : m.lastReading k = true ↔
    m.activity = .scanSingle ∧ ∀ j : Fin 4, k < j → m.scanSet.getLsbD j = false := by
  rw [Monitor.lastReading, Bool.and_eq_true, decide_eq_true_eq, Option.isNone_iff_eq_none, beamAbove_none_iff]
  refine and_congr_right fun _ => forall_congr' fun j => ?_
  simp only [Option.some.injEq, forall_eq', not_and, Bool.eq_false_iff, ne_eq]
  tauto

/-- Settles O48. -/
theorem beamStepEnd : Obligations.BeamStepEnd := by
  refine ⟨fun v s k n1 gate hr hs href => ?_, fun s k ticks pulses n2 n1 gate href => ?_⟩
  · intro source pi w status
    have hm := measuring_eq hs href
    have hpulse : Answers (.beamStepPulseEnd v) s (s.endBeam k v.toNat n1 (some v.toNat)) := by
      refine answers_event (f := fun s => s.endBeam k v.toNat n1 (some v.toNat)) ?_ hr rfl
      simp only [exec, execBeamStepPulseEnd, hm]
    have hgate : Answers (.beamStepGateTimeout v) s (s.endBeam k 16777215 v.toNat none) := by
      refine answers_event (f := fun s => s.endBeam k counterTop v.toNat none) ?_ hr rfl
      simp only [exec, execBeamStepGateTimeout, hm]
    exact ⟨hpulse, hgate, ⟨_, hpulse, beamStep_frame href _ _ _⟩, ⟨_, hgate, beamStep_frame href _ _ _⟩⟩
  · intro m pi w status read
    have hvalid : s.monitor.valid? = some (n1, gate) := by simp [Monitor.valid?, href]
    have hpi : n2.map (powerIndex gate) = pi := rfl
    have hstatus : beamStatus (s.engine.active.windows.get k) pi = status := by
      simp only [status]
      cases pi <;> rfl
    have hread : s.endBeam k ticks pulses n2 =
        if m.activity.scanning then read.scanAfterBeam k status pi n2 n1 gate else read.judge k status pi := by
      simp only [State.endBeam, hvalid, hpi, hstatus]
      rfl
    refine ⟨fun hs last hlast => ?_, fun hs t p ht hp => ?_⟩
    · rw [hread, if_pos ((scanning_iff _).mpr hs)]
      have hl : last = read.monitor.lastReading k := Bool.eq_iff_iff.mpr (hlast.trans (lastReading_iff read.monitor k).symm)
      rw [hl]
      rfl
    · intro line done power reading
      have hexp : ¬m.activity.scanning = true := by
        rcases hs with hs | hs <;> simp [hs, Activity.scanning]
      rw [if_neg hexp] at hread
      have htaken : read.takenPlate? = some (t, p) := takenPlate?_eq (s := read) ht hp
      have hself : read.plate? p.id = some p := by rw [(plate?_some hp).1]; exact hp
      have hreading : Reading.of pi = reading := by
        simp only [reading]
        cases pi <;> rfl
      have hjudge : s.endBeam k ticks pulses n2 = (fun u : State => u.withMonitor { u.monitor with
          previous := u.monitor.previous.set k u.monitor.stepSwath }) (read.judgeEpisode t p k status pi) := by
        rw [hread]
        simp only [State.judge, htaken]
      have hdone {u : State} (hu : u.monitor.stepSwath = m.stepSwath) (h : read.judgeEpisode t p k status pi = u) :
          s.endBeam k ticks pulses n2 = done u := by
        rw [hjudge, h]
        simp only [done, hu]
      have hget : read.monitor.power.get k = m.power.get k := rfl
      refine ⟨fun ho hb => hdone rfl ?_, fun link ho hb => hdone ?_ ?_, fun link ho hb => hdone ?_ ?_, fun ho hb => hdone ?_ ?_⟩
      · simp only [State.judgeEpisode, if_pos ho, hget, hb]
        rfl
      · simp [power, read]
      · simp only [State.judgeEpisode, if_pos ho, hget, hb]
        rfl
      · simp [read]
      · simp only [State.judgeEpisode, if_neg ho, hget, hb, hreading]
        rfl
      · simp [power, read]
      · simp only [State.judgeEpisode, if_neg ho, hget, hb, hreading, recordIndex_eq hself]
        rfl

/-! ### The monitor's requests -/

theorem sourceByte (x : Source) : byteOf x.pos = match x with | .exposure => 0 | .scan => 1 := by cases x <;> rfl

theorem statusByte (x : BeamStatus) :
    byteOf x.pos = match x with | .ok => 0 | .low => 1 | .high => 2 | .timeout => 3 := by cases x <;> rfl

theorem outcomeByte (x : RefOutcome) : byteOf x.pos = match x with | .valid => 0 | .fault => 1 | .timeout => 2 := by
  cases x <;> rfl

theorem beamEntryBytes_length (k : Fin 4) (r : Option BeamReading) : (beamEntryBytes k r).length = 6 := by
  cases r <;> simp [beamEntryBytes]

theorem refEntryBytes_length (r : Option RefReading) : (refEntryBytes r).length = 9 := by
  cases r <;> simp [refEntryBytes]

theorem monitorBytes_length (m : Monitor) : m.bytes.length = 35 := by
  simp [Monitor.bytes, beamEntryBytes_length, refEntryBytes_length]

/-- A beam entry of the reading table, byte by byte (R192). -/
theorem beamEntryBytes_eq (k : Fin 4) (r : Option BeamReading) : beamEntryBytes k r = match r with
    | none => [byteOf k.val, 0, 0, 0, 0, 0]
    | some r =>
      [byteOf k.val, 1, (match r.status with | .ok => 0 | .low => 1 | .high => 2 | .timeout => 3),
        (match r.source with | .exposure => 0 | .scan => 1)] ++ encBE 2 (r.pi.getD 0) := by
  cases r with
  | none =>
    simp only [beamEntryBytes, encBE_one]
    rfl
  | some r =>
    simp only [beamEntryBytes, encBE_one, statusByte, sourceByte]
    rfl

theorem refEntryBytes_eq (r : Option RefReading) : refEntryBytes r = match r with
    | none => [4, 0, 0, 0, 0, 0, 0, 0, 0]
    | some r =>
      [4, 1, (match r.outcome with | .valid => 0 | .fault => 1 | .timeout => 2),
        (match r.source with | .exposure => 0 | .scan => 1)] ++ encBE 3 r.n1 ++ encBE 2 r.gate := by
  cases r with
  | none => rfl
  | some r =>
    simp only [refEntryBytes, encBE_one, outcomeByte, sourceByte]
    rfl

/-- Settles O49. -/
theorem Settled.monitorRead : Obligations.MonitorRead := by
  intro s m rest hm hk
  refine ⟨fun hb => ?_, fun hb => hm.answers (f := Machine.monitorRead) rfl hk (if_neg hb), monitorBytes_length _⟩
  refine hm.does (f := Machine.monitorRead) rfl hk ((if_pos hb).trans ((hm.answer .ok _).trans ?_))
  refine congrArg (s.replied m.tag rest .ok) ?_
  rw [Monitor.bytes, beamEntryBytes_eq, beamEntryBytes_eq, beamEntryBytes_eq, beamEntryBytes_eq, refEntryBytes_eq,
    encBE_one, encBE_one, activity_byte, step_byte]
  rfl

/-- Settles O50. -/
theorem Settled.monitorMeasure : Obligations.MonitorMeasure := by
  intro s m rest hm hk set mode scanning
  have hscan : s.monitor.activity.scanning = true ↔ scanning := scanning_iff _
  have hrefuse {x : Status} (hx : Machine.monitorMeasure m s = s.answer x []) :
      Answers .monitorMeasure s (s.replied m.tag rest x []) := hm.answers (f := Machine.monitorMeasure) rfl hk hx
  have hdef : Machine.monitorMeasure m s =
      if m.body.length ≠ 2 ∨ 15 < set ∨ 1 < mode then s.answer .badArg []
      else if set = 0 then s.answer .badArg []
      else if s.engine.state ≠ .idle then s.answer .busy []
      else if s.monitor.activity.scanning then s.answer .busy []
      else (s.beginScan set mode).answer .ok [] := rfl
  refine ⟨fun h => hrefuse ?_, fun hl h15 h1 h0 => ?_⟩
  · by_cases hbad : m.body.length ≠ 2 ∨ 15 < set ∨ 1 < mode
    · rw [hdef, if_pos hbad]
    · rw [hdef, if_neg hbad, if_pos (by tauto)]
  · rw [if_neg (by omega), if_neg h0] at hdef
    refine ⟨fun h => hrefuse ?_, fun hidle hno => ?_⟩
    · by_cases hidle : s.engine.state ≠ .idle
      · rw [hdef, if_pos hidle]
      · rw [hdef, if_neg hidle, if_pos (hscan.mpr (h.resolve_left hidle))]
    · rw [if_neg (not_not.mpr hidle), if_neg (mt hscan.mp hno)] at hdef
      refine hm.does (f := Machine.monitorMeasure) rfl hk (hdef.trans ?_)
      exact hm.answerOver (u := s.beginScan set mode) rfl rfl rfl rfl .ok []

/-- Settles O51. -/
theorem Settled.monitorStop : Obligations.MonitorStop := by
  intro s m rest hm hk scanning
  have hscan : s.monitor.activity.scanning = true ↔ scanning := scanning_iff _
  refine ⟨fun hb => hm.answers (f := Machine.monitorStop) rfl hk (if_pos hb), fun hb hno => ?_, fun hb hs => ?_⟩
  · exact hm.answers (f := Machine.monitorStop) rfl hk
      ((if_neg (not_not.mpr hb)).trans (if_neg (mt hscan.mp hno)))
  · refine hm.does (f := Machine.monitorStop) rfl hk (((if_neg (not_not.mpr hb)).trans (if_pos (hscan.mpr hs))).trans ?_)
    rw [hm.answerOver (u := s.withMonitor s.monitor.stopped) rfl rfl rfl rfl .ok _, encBE_one, step_byte]
    rfl

end Sys2Proof.Machine

/-! Damage, marks and stamps: STAMP LOAD (O52), PLATE REPORT (O53), the damage and marks unit (O54), and the making of
notices, records and mark requests (O55). -/

namespace Sys2Proof.Machine

/-! ### STAMP LOAD -/

theorem anyActive_iff (s : State) : s.anyActive = true ↔ ∃ p ∈ s.table.plates, p.state = .active := by
  simp [State.anyActive]

/-- Settles O52. -/
theorem Settled.stampLoad : Obligations.StampLoad := by
  intro s m rest hm hk n
  have hrefuse {x : Status} (hx : Machine.stampLoad m s = s.answer x []) :
      Answers .stampLoad s (s.replied m.tag rest x []) := hm.answers (f := Machine.stampLoad) rfl hk hx
  have hdef : Machine.stampLoad m s =
      if m.body.length ≠ 513 then s.answer .badArg []
      else if 31 < n then s.answer .badArg []
      else if s.anyActive then s.answer .busy []
      else (s.withStamps (s.stamps.set n (stampRows m.body))).answer .ok [] := rfl
  refine ⟨fun h => hrefuse ?_, fun hl hn => ?_⟩
  · by_cases hl : m.body.length ≠ 513
    · rw [hdef, if_pos hl]
    · rw [hdef, if_neg hl, if_pos (h.resolve_left hl)]
  · rw [if_neg (not_not.mpr hl), if_neg (Nat.not_lt.mpr hn)] at hdef
    refine ⟨fun ha => hrefuse (hdef.trans (if_pos ((anyActive_iff s).mpr ha))), fun ha => ?_⟩
    have hno : ¬s.anyActive = true := fun h => by
      obtain ⟨p, hp, hs⟩ := (anyActive_iff s).mp h
      exact ha p hp hs
    refine hm.does (f := Machine.stampLoad) rfl hk ((hdef.trans (if_neg hno)).trans ?_)
    exact hm.answerOver (u := s.withStamps (s.stamps.set n (stampRows m.body))) rfl rfl rfl rfl .ok []

/-! ### PLATE REPORT -/

theorem causeByte (c : Cause) : byteOf c.pos = match c with
    | .code => 0 | .content => 1 | .starved => 2 | .underrun => 3 | .power => 4 | .blind => 5 | .signature => 6
    | .drum => 7 := by cases c <;> rfl

theorem plateStateByte (x : PlateState) : byteOf x.pos =
    match x with | .loading => 0 | .active => 1 | .done => 2 | .aborted => 3 | .faulted => 4 := by cases x <;> rfl

/-- Five flags at the five lowest bits. -/
theorem flags_or : ∀ a b c d e : Bool, byteOf ((if a then 1 else 0) + (if b then 2 else 0) + (if c then 4 else 0)
      + (if d then 8 else 0) + (if e then 16 else 0))
    = (if a then 1 else 0) ||| (if b then 2 else 0) ||| (if c then 4 else 0) ||| (if d then 8 else 0)
      ||| (if e then 16 else 0) := by
  decide

theorem flagsByte (r : DamageRecord) : byteOf r.flags = (if r.opened = some true then 1 else 0)
    ||| (if r.beam ≠ none then 2 else 0) ||| (if r.reading = some .timeout then 4 else 0)
    ||| (if r.seq ≠ none then 8 else 0) ||| (if r.markLine ≠ none then 16 else 0) := by
  have h := flags_or (decide (r.opened = some true)) (decide (r.beam ≠ none)) (decide (r.reading = some .timeout))
    (decide (r.seq ≠ none)) (decide (r.markLine ≠ none))
  simp only [decide_eq_true_eq] at h
  rw [← h]
  simp only [DamageRecord.flags, Option.isSome_iff_ne_none]

theorem recordBytes_length (r : DamageRecord) (index : Nat) : (r.bytes index).length = 15 := by
  simp [DamageRecord.bytes]

/-- Settles O53. -/
theorem Settled.plateReport : Obligations.PlateReport := by
  refine ⟨fun r index => ?_, fun s m rest hm hk => ?_⟩
  · intro cause reading flags
    have hcause : cause = byteOf r.cause.pos := (causeByte _).symm
    have hflags : flags = byteOf r.flags := (flagsByte r).symm
    have hreading : reading = (r.reading.map Reading.pi).getD 0 := by
      simp only [reading]
      rcases r.reading with _ | _ | _ <;> rfl
    have hbeam : byteOf ((r.beam.map Fin.val).getD 0) = match r.beam with | none => 0 | some k => byteOf k.val := by
      cases r.beam <;> rfl
    refine ⟨?_, recordBytes_length r index⟩
    rw [hcause, hflags, hreading, DamageRecord.bytes]
    simp only [encBE_one, hbeam]
    simp <;> rfl
  · intro first
    refine ⟨fun hl => hm.answers (f := Machine.plateReport) rfl hk (if_neg hl), fun hl => ⟨fun hn => ?_, fun p hp => ?_⟩⟩
    · exact hm.answers (f := Machine.plateReport) rfl hk (by simp only [Machine.plateReport, if_pos hl, hn])
    · refine hm.does (f := Machine.plateReport) rfl hk ?_
      simp only [Machine.plateReport, if_pos hl, hp]
      refine (hm.answer .ok _).trans (congrArg (s.replied m.tag rest .ok) ?_)
      rw [Plate.reportBytes]
      simp only [encBE_one, plateStateByte]
      simp [indexed, first] <;> rfl

/-! ### Notices, records and mark requests -/

theorem abandonByte (x : Abandon) : byteOf x.pos =
    match x with | .check => 0 | .overrun => 1 | .length => 2 | .payload => 3 | .interrupted => 4 := by cases x <;> rfl

theorem refuseByte (x : Refuse) : byteOf x.pos = match x with
    | .noPlate => 0 | .badBand => 1 | .badSeq => 2 | .late => 3 | .badRect => 4 | .badParam => 5 | .noScreen => 6
    | .noRoom => 7 | .dup => 8 := by cases x <;> rfl

theorem drumCauseByte (x : DrumCause) : byteOf x.pos =
    match x with | .watchdog => 0 | .readyLost => 1 | .edgeMissing => 2 := by cases x <;> rfl

/-- A request is placed behind those whose line is equal or lower. -/
theorem insertMark_between (r : MarkRequest) {before after : List MarkRequest} (hb : ∀ x ∈ before, x.line ≤ r.line)
    (ha : ∀ x, after.head? = some x → r.line < x.line) : insertMark r (before ++ after) = before ++ r :: after := by
  induction before with
  | nil =>
    cases after with
    | nil => rfl
    | cons x rest => exact if_neg (Nat.not_le.mpr (ha x rfl))
  | cons x before ih =>
    rw [List.cons_append, insertMark, if_pos (hb x (by simp)), ih fun y hy => hb y (by simp [hy])]
    rfl

theorem patternOf_eq (u : Setup) (c : Cause) : u.patternOf c = (u.patterns[c.pos]?).getD none := by
  rw [Setup.patternOf, List.getD_eq_getElem?_getD]

theorem causePos (c : Cause) : c.pos = match c with
    | .code => 0 | .content => 1 | .starved => 2 | .underrun => 3 | .power => 4 | .blind => 5 | .signature => 6
    | .drum => 7 := by cases c <;> rfl

/-- Settles O55. -/
theorem noticesRecordsMarks : Obligations.NoticesRecordsMarks := by
  refine ⟨fun n => ?_, fun s n => ⟨fun h => ?_, fun h => ?_⟩, fun s r p hp => ⟨fun h => ?_, fun h => ?_⟩,
    fun m pattern line link => ⟨fun h => ?_, fun h before after hq hb ha => ?_⟩, fun s c line link => ?_,
    fun s p hp => ⟨fun r line => ?_, fun v f => ⟨rfl, fun i => ?_⟩⟩⟩
  · intro optional flag sent
    have hoptional : optional = encOption := by
      funext k x
      cases x <;> rfl
    simp only [sent, hoptional]
    cases n <;> simp [Notice.cls, Notice.kind, Notice.fields, encBool, flag, drumCauseByte, outcomeByte, refuseByte,
      abandonByte, statusByte] <;> rfl
  · exact congrArg s.withLink (if_pos h)
  · exact congrArg s.withLink (if_neg (Nat.not_lt.mpr h))
  · simp only [State.addRecord, recordIndex_eq hp, if_pos h]
  · simp only [State.addRecord, recordIndex_eq hp, if_neg (Nat.not_lt.mpr h)]
    rfl
  · exact if_neg (Nat.not_lt.mpr h)
  · rw [Marks.request, if_pos h, hq, insertMark_between _ hb ha]
  · intro position
    have hpos : position = c.pos := (causePos c).symm
    rw [hpos]
    refine ⟨fun h => ?_, fun pattern h => ?_⟩
    · have hnone : s.engine.active.patternOf c = none := by
        rw [patternOf_eq]
        rcases h with h | h <;> rw [h] <;> rfl
      simp only [State.requestMark, hnone]
    · have hsome : s.engine.active.patternOf c = some pattern := by
        rw [patternOf_eq, h]
        rfl
      simp only [State.requestMark, hsome]
  · rw [State.addMarked, recordIndex_eq hp]
  · simp only [State.extendRecord, hp]
    rfl

end Sys2Proof.Machine

/-! The damage and marks unit (O54): signatures, the mark lane, the outgoing swath, underruns, ink, and the laser head's
outputs. -/

namespace Sys2Proof.Machine

/-! ### Signatures -/

theorem sigAt_eq {m : Marks} {line : Nat} {acc : SigAcc}
    (h : line % 256 = 0 ∧ acc = ⟨line / 256, 0xFFFFFFFF⟩ ∨ line % 256 ≠ 0 ∧ m.sig = some acc) : m.sigAt line = some acc := by
  rcases h with ⟨h0, rfl⟩ | ⟨h0, hs⟩
  · exact if_pos h0
  · exact (if_neg h0).trans hs

theorem setSignature_matching {s : State} {p : Plate} {copy b line : Nat} {sig : Crc32}
    (h : ∀ e, (p.bands[b]?).bind Band.expectedSig = some e → e = sig) : s.setSignature p copy b line sig =
      (s.withMarks { s.marks with sig := none }).modBand p.id b fun x => { x with lastSig := some sig } := by
  unfold State.setSignature
  cases he : (p.bands[b]?).bind Band.expectedSig with
  | none => rfl
  | some e => exact if_pos (h e he)

theorem setSignature_differing {s : State} {p : Plate} {copy b line : Nat} {sig e : Crc32}
    (he : (p.bands[b]?).bind Band.expectedSig = some e) (h : e ≠ sig) : s.setSignature p copy b line sig =
      ((s.withMarks { s.marks with sig := none }).modBand p.id b fun x => { x with lastSig := some sig }).addMarked p.id
        (signatureRecord p copy b) (4 * (line / 4)) := by
  unfold State.setSignature
  rw [he]
  exact if_neg h

/-! ### The mark lane -/

theorem laneStep_idle {s : State} {id sw : Nat} (h : (∃ d, s.marks.lane = some d)
    ∨ s.marks.lane = none ∧ ∀ r, s.marks.queue.head? = some r → 4 * sw + 3 < r.line) : s.laneStep id sw = s := by
  unfold State.laneStep
  rcases h with ⟨d, hd⟩ | ⟨hn, hq⟩
  · rw [hd]
  · rw [hn]
    cases hqueue : s.marks.queue with
    | nil => rfl
    | cons r rest => exact if_neg (Nat.not_le.mpr (hq r (by rw [hqueue]; rfl)))

/-- A free lane begins the request at the head of the queue. -/
theorem laneStep_begins {s : State} {id sw : Nat} {r : MarkRequest} {rest : List MarkRequest} (hn : s.marks.lane = none)
    (hq : s.marks.queue = r :: rest) (hl : r.line ≤ 4 * sw + 3) :
    (s.laneStep id sw).marks = { s.marks with queue := rest, lane := some ⟨r.pattern, 4 * sw⟩ }
      ∧ (r.link = none → (s.laneStep id sw).table = s.table)
      ∧ ∀ index, r.link = some index → (s.laneStep id sw).table = (s.modRecord id index fun x =>
          { x with markLine := some (x.markLine.getD (4 * sw)) }).table := by
  unfold State.laneStep
  rw [hn, hq]
  simp only [if_pos hl]
  rcases r.link with _ | index
  · exact ⟨rfl, fun _ => rfl, fun i hi => by cases hi⟩
  · refine ⟨rfl, (fun h => by cases h), fun i hi => ?_⟩
    cases hi
    rfl

/-! ### The outgoing swath -/

/-- The lines of a swath fed are those below the plate's height, in their order. -/
theorem feedLines_eq (p : Plate) (copy : Nat) (lines : List (List Byte)) : ∀ (line : Nat) (s : State),
    feedLines p copy line lines s = (lines.zipIdx line).foldl
      (fun x l => if l.2 < p.height then x.feedLine p copy l.2 l.1 else x) s := by
  induction lines with
  | nil => intro line s; rfl
  | cons bytes rest ih =>
    intro line s
    rw [feedLines, List.zipIdx_cons, List.foldl_cons]
    exact ih (line + 1) _

theorem mapIdx_eq_zipIdx_map {α β : Type} (f : Nat → α → β) (n : Nat) (l : List α) :
    (l.mapIdx fun k a => f (n + k) a) = (l.zipIdx n).map fun x => f x.2 x.1 := by
  refine List.ext_getElem? fun i => ?_
  rw [List.getElem?_mapIdx, List.getElem?_map, List.getElem?_zipIdx]
  cases l[i]? <;> rfl

theorem laneAfter_eq (m : Marks) (sw : Nat) : m.laneAfter sw = { m with
    lane := match m.lane with
      | some d => if d.markLine + 63 ≤ 4 * sw + 3 then none else some d
      | none => none } := by
  unfold Marks.laneAfter
  obtain ⟨queue, lane, run, sig⟩ := m
  cases lane with
  | none => rfl
  | some d =>
    dsimp only
    split <;> rfl

/-! ### Underruns -/

theorem noteUnderrun_merged {s : State} {r : UnderrunRun} (p : Plate) (copy : Nat) {sw : Nat} (h : s.marks.run = some r)
    (hb : r.band = 4 * sw / 256) (hl : r.last + 1 = 4 * sw) : s.noteUnderrun p copy sw = s.mergeUnderrun p r sw := by
  unfold State.noteUnderrun
  rw [h]
  exact if_pos (by simp [UnderrunRun.reaches, hb, hl])

theorem noteUnderrun_new {s : State} (p : Plate) (copy : Nat) {sw : Nat}
    (h : ∀ r, s.marks.run = some r → r.band ≠ 4 * sw / 256 ∨ r.last + 1 ≠ 4 * sw) :
    s.noteUnderrun p copy sw = s.newUnderrun p copy sw := by
  unfold State.noteUnderrun
  cases hr : s.marks.run with
  | none => rfl
  | some r =>
    refine if_neg fun hc => ?_
    rw [UnderrunRun.reaches, Bool.and_eq_true, decide_eq_true_eq, decide_eq_true_eq] at hc
    exact (h r hr).elim (fun h => h hc.1) fun h => h hc.2

/-! ### Ink -/

/-- Pixel `x` of a line of bytes, the leftmost pixel of a byte its most significant bit. -/
def pixelOf (bytes : List Byte) (x : Nat) : Bool := (bytes.getD (x / 8) 0).getLsbD (7 - x % 8)

/-- A pattern row laid at pixel `left` inks pixel `x`. -/
def RowInks (row : BitVec 64) (left x : Nat) : Prop :=
  left ≤ x ∧ x ≤ left + 63 ∧ row.getLsbD (63 - (x - left)) = true

/-- The pixel `r` of byte `i` of a row laid `shift` pixels into its first byte. -/
theorem rowByte_pixel (row : BitVec 64) {shift i r : Nat} (hs : shift < 8) (hi : i ≤ 8) (hr : r < 8) :
    (rowByte row shift i).getLsbD (7 - r) = true ↔ RowInks row shift (8 * i + r) := by
  unfold rowByte RowInks
  simp only [BitVec.truncate_eq_setWidth, BitVec.getLsbD_setWidth,
    BitVec.getLsbD_ushiftRight, BitVec.getLsbD_shiftLeft, Bool.and_eq_true, decide_eq_true_eq, Bool.not_eq_true',
    decide_eq_false_iff_not]
  constructor
  · rintro ⟨_, ⟨h1, h2⟩, h3, h4⟩
    have hlt := BitVec.lt_of_getLsbD h4
    refine ⟨by omega, by omega, ?_⟩
    rwa [show 63 - (8 * i + r - shift) = 64 - 8 * i + (7 - r) - (8 - shift) by omega]
  · rintro ⟨h1, h2, h3⟩
    refine ⟨by omega, ⟨by omega, by omega⟩, by omega, ?_⟩
    rwa [show 64 - 8 * i + (7 - r) - (8 - shift) = 63 - (8 * i + r - shift) by omega]

theorem layRow_length (left : Nat) (row : BitVec 64) (line : List Byte) : (layRow left row line).length = line.length := by
  simp [layRow]

/-- A row laid on a line inks its own pixels and leaves the others. -/
theorem layRow_pixel (left : Nat) (row : BitVec 64) {line : List Byte} {x : Nat} (hx : x < 8 * line.length) :
    pixelOf (layRow left row line) x = true ↔ pixelOf line x = true ∨ RowInks row left x := by
  have hlen : x / 8 < line.length := by omega
  have hget : (layRow left row line).getD (x / 8) 0 = if left / 8 ≤ x / 8 ∧ x / 8 ≤ left / 8 + 8
      then line.getD (x / 8) 0 ||| rowByte row (left % 8) (x / 8 - left / 8) else line.getD (x / 8) 0 := by
    simp [layRow, List.getD_eq_getElem?_getD, hlen]
  unfold pixelOf
  rw [hget]
  split
  next h =>
    rw [BitVec.getLsbD_or, Bool.or_eq_true, rowByte_pixel row (Nat.mod_lt _ (by decide)) (by omega) (Nat.mod_lt _ (by decide))]
    refine or_congr_right ?_
    unfold RowInks
    rw [show 8 * (x / 8 - left / 8) + x % 8 - left % 8 = x - left by omega]
    refine ⟨fun ⟨h1, h2, h3⟩ => ⟨by omega, by omega, h3⟩, fun ⟨h1, h2, h3⟩ => ⟨by omega, by omega, h3⟩⟩
  next h =>
    refine ⟨.inl, fun hor => hor.resolve_right fun ⟨h1, h2, _⟩ => h ?_⟩
    omega

/-- A pattern whose first row stands on line `top`, at pixel `left`, inks pixel `x` of line `l`. -/
def PatternInks (stamps : List (List (BitVec 64))) (l x pattern left top : Nat) : Prop :=
  top ≤ l ∧ l ≤ top + 63 ∧ left ≤ x ∧ x ≤ left + 63
    ∧ ((stamps.getD pattern []).getD (l - top) 0).getLsbD (63 - (x - left)) = true

theorem layPattern_length (stamps : List (List (BitVec 64))) (pattern left top l : Nat) (line : List Byte) :
    (layPattern stamps pattern left top l line).length = line.length := by
  unfold layPattern
  split
  · exact layRow_length _ _ _
  · rfl

theorem layPattern_pixel (stamps : List (List (BitVec 64))) (pattern left top l : Nat) {line : List Byte} {x : Nat}
    (hx : x < 8 * line.length) : pixelOf (layPattern stamps pattern left top l line) x = true ↔
      pixelOf line x = true ∨ PatternInks stamps l x pattern left top := by
  unfold layPattern PatternInks
  split
  next h =>
    rw [layRow_pixel _ _ hx]
    exact or_congr_right ⟨fun ⟨h1, h2, h3⟩ => ⟨h.1, h.2, h1, h2, h3⟩, fun ⟨_, _, h1, h2, h3⟩ => ⟨h1, h2, h3⟩⟩
  next h => exact ⟨.inl, fun hor => hor.resolve_right fun ⟨h1, h2, _⟩ => h ⟨h1, h2⟩⟩

/-- The fixed stamps laid on a line one after another. -/
theorem layStamps_pixel (stamps : List (List (BitVec 64))) (l : Nat) {x : Nat} (ts : List Stamp) : ∀ (line : List Byte),
    x < 8 * line.length →
    (ts.foldl (fun y t => layPattern stamps t.pattern t.x t.y l y) line).length = line.length
      ∧ (pixelOf (ts.foldl (fun y t => layPattern stamps t.pattern t.x t.y l y) line) x = true ↔
        pixelOf line x = true ∨ ∃ t ∈ ts, PatternInks stamps l x t.pattern t.x t.y) := by
  induction ts with
  | nil => intro line _; simp
  | cons t ts ih =>
    intro line hx
    have hlen := layPattern_length stamps t.pattern t.x t.y l line
    obtain ⟨h1, h2⟩ := ih (layPattern stamps t.pattern t.x t.y l line) (by rwa [hlen])
    refine ⟨h1.trans hlen, ?_⟩
    rw [List.foldl_cons, h2, layPattern_pixel _ _ _ _ _ hx]
    simp [or_assoc]

theorem inked_pixel {s : State} {p : Plate} {l x : Nat} {line : List Byte} (hl : l < p.height)
    (hx : x < 8 * line.length) : (s.inked p l line).length = line.length
      ∧ (pixelOf (s.inked p l line) x = true ↔ pixelOf line x = true
        ∨ (∃ d, s.marks.lane = some d ∧ PatternInks s.stamps l x d.pattern s.engine.active.laneX d.markLine)
        ∨ ∃ t ∈ p.stamps, PatternInks s.stamps l x t.pattern t.x t.y) := by
  unfold State.inked
  rw [if_pos hl]
  cases s.marks.lane with
  | none =>
    obtain ⟨h1, h2⟩ := layStamps_pixel s.stamps l p.stamps line hx
    exact ⟨h1, by simpa using h2⟩
  | some d =>
    have hlen := layPattern_length s.stamps d.pattern s.engine.active.laneX d.markLine l line
    obtain ⟨h1, h2⟩ := layStamps_pixel s.stamps l p.stamps (layPattern s.stamps d.pattern s.engine.active.laneX d.markLine l line)
      (by rwa [hlen])
    refine ⟨h1.trans hlen, h2.trans ?_⟩
    rw [layPattern_pixel _ _ _ _ _ hx]
    simp [or_assoc]

/-! ### The laser head's outputs -/

theorem beamEnable_iff (s : State) (k : Fin 4) :
    s.beamEnable.getLsbD k = true ↔ s.pins.laser ≠ none ∨ s.monitor.step = .beam k := by
  unfold State.beamEnable
  cases s.pins.laser with
  | some o => simp; revert k; decide
  | none =>
    cases s.monitor.step with
    | none => simp [Step.beam?]
    | ref => simp [Step.beam?]
    | beam j => simp only [Step.beam?]; revert j k; decide

/-- Settles O54. -/
theorem signatureAndLane : Obligations.SignatureAndLane := by
  refine ⟨fun s p copy line bytes acc hacc => ?_, fun s id sw => ⟨fun h => laneStep_idle (.inl h), fun hn hq =>
    laneStep_idle (.inr ⟨hn, hq⟩), fun r rest hn hq hl => laneStep_begins hn hq hl⟩, fun s t p sw underrun lines => ?_,
    fun s p copy sw hp => ?_, fun s p l x line hx => ?_, fun s => ⟨?_, fun k => ⟨beamEnable_iff s k, fun h => ?_, fun o ho => ?_⟩⟩⟩
  · intro crc
    have hfeed : s.feedLine p copy line bytes =
        if p.lastLine (line / 256) = line then s.setSignature p copy acc.band line (~~~crc)
        else s.withMarks { s.marks with sig := some ⟨acc.band, crc⟩ } := by
      simp only [State.feedLine, sigAt_eq hacc]
      rfl
    refine ⟨fun h => hfeed.trans (if_neg h), fun h => ⟨fun he => ?_, fun e he hne => ?_⟩⟩
    · exact (hfeed.trans (if_pos h)).trans (setSignature_matching he)
    · exact (hfeed.trans (if_pos h)).trans (setSignature_differing he hne)
  · intro s1 fed drawn u
    have hu : u = (drawn.withPins { drawn.pins with laser := some ⟨sw, lines.mapIdx fun k line =>
        drawn.inked p (4 * sw + k) line⟩ }).withMarks (drawn.marks.laneAfter sw) := by
      simp only [u, State.handSwath, feedLines_eq]
      rfl
    have hpins : drawn.pins = s.pins := by
      have hfed : fed = feedLines p t.copy (4 * sw) lines s1 := (feedLines_eq p t.copy lines _ _).symm
      simp only [drawn, hfed, s1]
      cases underrun <;> simp
    refine ⟨?_, ?_, ?_, ?_, ?_, ?_⟩
    · rw [hu, mapIdx_eq_zipIdx_map (fun l line => drawn.inked p l line)]
      simp [hpins]
    · rw [hu]; rfl
    · rw [hu]; rfl
    · simp [u]
    · simp [u]
    · rw [hu]
      exact laneAfter_eq _ _
  · intro last band
    have hlast : p.swathEnd sw = last := rfl
    refine ⟨fun r hr hb hl => ?_, fun h => ?_⟩
    · rw [noteUnderrun_merged p copy hr hb hl]
      simp only [State.mergeUnderrun, hlast]
      cases r.link <;> rfl
    · rw [noteUnderrun_new p copy h]
      simp only [State.newUnderrun, recordIndex_eq hp]
      rfl
  · intro pixel ink
    exact ⟨fun h => if_neg (Nat.not_lt.mpr h), fun h => inked_pixel h hx⟩
  · unfold State.calibrationFiring
    cases s.monitor.step <;> simp [Step.beam?]
  · simp [State.beamData, h]
  · simp [State.beamData, ho]

end Sys2Proof.Machine

/-! Plate memory and its arbiter: the waiting bursts and the grant (O37), the bytes of a burst and the cells of a painted line
(O38), and what a burst's end does for its requester (O39). -/

namespace Sys2Proof.Machine

/-! ### The waiting bursts -/

/-- A waiting burst is its requester's own, and moves at most 256 bytes. -/
theorem waiting_shape {s : State} {who : Requester} {b : Burst} (h : s.waiting who = some b) :
    b.who = who ∧ b.op.length ≤ 256 := by
  cases who with
  | fetch =>
    obtain ⟨r, _, rfl⟩ := Option.map_eq_some_iff.mp h
    exact ⟨rfl, Nat.min_le_left _ _⟩
  | intake =>
    simp only [State.waiting, Intake.burst] at h
    split at h
    · unfold OpenSegment.burst at h
      split at h
      next payload w _ =>
        split at h
        · cases h
          refine ⟨rfl, ?_⟩
          have := (ringBurst_le (‹OpenSegment›.ringOffset + ‹OpenSegment›.received) w (payload.length - w)).1
          simp only [BurstOp.length, List.length_map, List.length_take]
          omega
        · cases h
      · cases h
    all_goals cases h
  | decoder =>
    obtain ⟨d, _, hd⟩ := Option.bind_eq_some_iff.mp h
    unfold Decode.burst at hd
    split at hd
    · split at hd
      · dsimp only at hd
        split at hd
        · cases hd
          exact ⟨rfl, (ringBurst_le _ _ _).1⟩
        · cases hd
      all_goals cases hd
    · cases hd
      exact ⟨rfl, by simp [BurstOp.length]⟩
  | screener =>
    obtain ⟨d, _, hd⟩ := Option.bind_eq_some_iff.mp h
    unfold Screen.burst at hd
    split at hd
    · split at hd
      · cases hd
        exact ⟨rfl, (ringBurst_le _ _ _).1⟩
      · obtain ⟨p, _, rfl⟩ := Option.map_eq_some_iff.mp hd
        exact ⟨rfl, by simp [BurstOp.length]⟩
      all_goals cases hd
    · cases hd
      exact ⟨rfl, by simp [BurstOp.length]⟩
  | screenTable =>
    obtain ⟨j, _, hj⟩ := Option.bind_eq_some_iff.mp h
    unfold TableJob.burst at hj
    split at hj
    · cases hj
      exact ⟨rfl, by simp [BurstOp.length]⟩
    · cases hj

/-! ### The grant -/

theorem grantOrder_eq (urgent : Bool) (last : Option SegKind) : grantOrder urgent last =
    (if urgent then [.fetch, .intake] else [.intake, .fetch])
      ++ (if last = some .line then [.screener, .decoder] else [.decoder, .screener]) ++ [.screenTable] := by
  rcases last with _ | _ | _ <;> rfl

theorem servedAfter_eq (who : Requester) (last : Option SegKind) : servedAfter who last =
    if who = .decoder then some .line else if who = .screener then some .tone else last := by
  cases who <;> rfl

theorem nextBurst_first {s : State} {before after : List Requester} {who : Requester} {b : Burst}
    (ho : grantOrder s.engine.urgent s.arbiter.lastServed = before ++ who :: after)
    (hb : ∀ w ∈ before, s.waiting w = none) (hw : s.waiting who = some b) : s.nextBurst = some b := by
  rw [State.nextBurst, ho, List.findSome?_append, List.findSome?_eq_none_iff.mpr hb, List.findSome?_cons, hw]
  rfl

theorem nextBurst_none {s : State} (h : ∀ w, s.waiting w = none) : s.nextBurst = none :=
  List.findSome?_eq_none_iff.mpr fun w _ => h w

theorem burstGrant_granted {s : State} {b : Burst} (hr : s.pins.resetAsserted = false) (hf : s.arbiter.burst = none)
    (hb : s.nextBurst = some b) : Answers .burstGrant s (s.grant b) := by
  refine answers_eventWhen (due := s.arbiter.burst.isNone) (f := fun s => s.grant b) ?_ hr (by rw [hf]; rfl) rfl
  simp only [exec, execBurstGrant, hb]

theorem burstGrant_ignored {s : State} (h : s.arbiter.burst ≠ none ∨ s.nextBurst = none) : Ignored .burstGrant s := by
  cases hb : s.nextBurst with
  | none => simp only [Ignored, exec, execBurstGrant, hb]
  | some b =>
    refine ignored_eventWhen (due := s.arbiter.burst.isNone) (f := fun s => s.grant b) ?_ ?_
    · simp only [exec, execBurstGrant, hb]
    · rcases h with h | h
      · exact Option.isNone_eq_false_iff.mpr (Option.isSome_iff_ne_none.mpr h)
      · rw [hb] at h; cases h

/-! ### What each requester has waiting -/

theorem isEmpty_of_ne_nil {α : Type} {l : List α} (h : l ≠ []) : ¬l.isEmpty = true := by simpa using h

theorem decoder_waiting_write {s : State} {d : Decode} (hd : s.decoder = some d) (h : d.transfer.cells ≠ []) :
    s.waiting .decoder = some ⟨.decoder, d.transfer.addr, .write (d.transfer.cells.take 256), false⟩ := by
  simp only [State.waiting, hd, Option.bind_some]
  exact if_neg (isEmpty_of_ne_nil h)

theorem decoder_waiting_read {s : State} {d : Decode} (hd : s.decoder = some d) (h : d.transfer.cells = []) :
    (d.phase = .code → d.readPos + d.ahead.length < d.work.entry.header.declared →
      s.waiting .decoder = some ⟨.decoder, ringAddr d.work.entry.ringOffset (d.readPos + d.ahead.length),
        .read (ringBurst d.work.entry.ringOffset (d.readPos + d.ahead.length)
          (d.work.entry.header.declared - (d.readPos + d.ahead.length))), false⟩)
    ∧ ((d.phase ≠ .code ∨ d.work.entry.header.declared ≤ d.readPos + d.ahead.length) → s.waiting .decoder = none) := by
  simp only [State.waiting, hd, Option.bind_some]
  have hburst : d.burst = _ := if_pos (by simp [h])
  rw [hburst]
  cases hp : d.phase with
  | code =>
    refine ⟨fun _ hn => if_pos hn, fun hn => if_neg ?_⟩
    rcases hn with hn | hn
    · exact absurd rfl hn
    · exact Nat.not_lt.mpr hn
  | fill l => exact ⟨fun hc => absurd hc (by simp), fun _ => rfl⟩
  | whiten l => exact ⟨fun hc => absurd hc (by simp), fun _ => rfl⟩
  | ended => exact ⟨fun hc => absurd hc (by simp), fun _ => rfl⟩

theorem screener_waiting_write {s : State} {d : Screen} (hd : s.screener = some d) (h : d.transfer.cells ≠ []) :
    s.waiting .screener = some ⟨.screener, d.transfer.addr, .write (d.transfer.cells.take 256), false⟩ := by
  simp only [State.waiting, hd, Option.bind_some]
  exact if_neg (isEmpty_of_ne_nil h)

/-- What a screener without a transfer waits for is said by its phase. -/
theorem screener_waiting_read {s : State} {d : Screen} (hd : s.screener = some d) (h : d.transfer.cells = []) :
    s.waiting .screener = match d.phase with
      | .readRow row got =>
        let start := d.work.entry.ringOffset + row * d.work.entry.header.sw
        some ⟨.screener, ringAddr start got.length,
          .read (ringBurst start got.length (d.work.entry.header.sw - got.length)), false⟩
      | .pixels laid =>
        (s.readySet d.work.entry.header.screen).map fun p =>
          ⟨.screener, tileBase + tileArea * d.work.entry.header.screen + 2 * p.entry (d.plateX laid) d.plateY, .read 2, false⟩
      | .fill _ | .ended => none := by
  simp only [State.waiting, hd, Option.bind_some]
  exact if_pos (by simp [h])

/-- Settles O37. -/
theorem burstGrant : Obligations.BurstGrant := by
  refine ⟨fun s hr => ?_, fun s => ?_, fun s who b h => (waiting_shape h).2⟩
  · intro order
    have horder : grantOrder s.engine.urgent s.arbiter.lastServed = order := grantOrder_eq _ _
    refine ⟨fun before after who b hf ho hb hw => ⟨(waiting_shape hw).1, ?_⟩, fun h => burstGrant_ignored ?_⟩
    · have hgrant := burstGrant_granted hr hf (nextBurst_first (horder.trans ho) hb hw)
      rwa [State.grant, (waiting_shape hw).1, servedAfter_eq] at hgrant
    · exact h.imp_right nextBurst_none
  · intro ring cut write
    refine ⟨rfl, fun seg payload w hi hseg hw => ?_, fun h => ?_, fun hd => ?_, fun d hd => ?_, fun hd => ?_, fun d hd => ?_,
      fun hj => ?_, fun j hj => ?_⟩
    · simp only [State.waiting, Intake.burst, hi, OpenSegment.burst, hseg, if_pos hw]
      rfl
    · simp only [State.waiting, Intake.burst]
      cases hi : s.feed.intake with
      | assembling seg =>
        simp only [OpenSegment.burst]
        rcases hseg : seg.writing with _ | ⟨payload, w⟩
        · rfl
        · exact if_neg (Nat.not_lt.mpr (h seg payload w hi hseg))
      | unselected => rfl
      | selected => rfl
      | skipping => rfl
    · simp [State.waiting, hd]
    · exact ⟨decoder_waiting_write hd, decoder_waiting_read hd⟩
    · simp [State.waiting, hd]
    · refine ⟨screener_waiting_write hd, fun hc => ⟨fun row got hp => ?_, fun laid p hp hset => ?_, fun hp => ?_⟩⟩
      · rw [screener_waiting_read hd hc, hp]
        rfl
      · rw [screener_waiting_read hd hc, hp, hset]
        rfl
      · rw [screener_waiting_read hd hc]
        rcases hp with hp | ⟨line, hp⟩ <;> rw [hp]
    · simp [State.waiting, hj]
    · simp only [State.waiting, hj, Option.bind_some]
      exact ⟨fun hw => if_pos hw, fun hw => if_neg (Nat.not_lt.mpr hw)⟩

/-! ### Painted lines -/

/-- The bits of eight pixels, the leftmost the most significant. -/
theorem pack_eight : ∀ (a b c d e f g h : Bool) (j : Fin 8),
    (byteOf ([a, b, c, d, e, f, g, h].foldl (fun a b => 2 * a + b.toNat) 0)).getLsbD (7 - j.val)
      = [a, b, c, d, e, f, g, h].getD j.val false := by
  decide +kernel

theorem packByte_pixel {pixels : List Bool} (hl : pixels.length ≤ 8) {j : Nat} (hj : j < 8) :
    (packByte pixels).getLsbD (7 - j) = pixels.getD j false := by
  have hlen : (pixels ++ List.replicate (8 - pixels.length) false).length = 8 := by
    simp
    omega
  have hget : pixels.getD j false = (pixels ++ List.replicate (8 - pixels.length) false).getD j false := by
    rw [List.getD_eq_getElem?_getD, List.getD_eq_getElem?_getD, List.getElem?_append]
    split
    · rfl
    · rw [List.getElem?_eq_none (by omega), List.getElem?_replicate]
      split <;> rfl
  rw [packByte, hget]
  match pixels ++ List.replicate (8 - pixels.length) false, hlen with
  | [a, b, c, d, e, f, g, h], _ => exact pack_eight a b c d e f g h ⟨j, hj⟩

/-- Piece `i` of a list cut into eights: the eight from `8i` on. -/
theorem piecesOfEight_getElem? {α : Type} : ∀ (n : Nat) (l : List α) (i : Nat), l.length ≤ n →
    (piecesOfEight n l)[i]? = if 8 * i < l.length then some ((l.drop (8 * i)).take 8) else none
  | 0, l, i, hl => by
    have : l = [] := List.eq_nil_of_length_eq_zero (Nat.le_zero.mp hl)
    subst this
    simp [piecesOfEight]
  | n + 1, l, i, hl => by
    unfold piecesOfEight
    cases l with
    | nil => simp
    | cons a r =>
      rw [if_neg (by simp)]
      cases i with
      | zero => simp
      | succ i =>
        rw [List.getElem?_cons_succ, piecesOfEight_getElem? n _ i (by simp at hl ⊢; omega), List.drop_drop,
          List.length_drop]
        have h8 : 8 + 8 * i = 8 * (i + 1) := by omega
        rw [h8]
        by_cases h : 8 * (i + 1) < (a :: r).length
        · rw [if_pos h, if_pos (by omega)]
        · rw [if_neg h, if_neg (by omega)]

theorem piecesOfEight_length {α : Type} : ∀ (n : Nat) (l : List α), l.length ≤ n →
    (piecesOfEight n l).length = (l.length + 7) / 8
  | 0, l, hl => by
    have : l = [] := List.eq_nil_of_length_eq_zero (Nat.le_zero.mp hl)
    subst this
    simp [piecesOfEight]
  | n + 1, l, hl => by
    unfold piecesOfEight
    cases l with
    | nil => simp
    | cons a r =>
      rw [if_neg (by simp), List.length_cons, piecesOfEight_length n _ (by simp at hl ⊢; omega), List.length_drop,
        List.length_cons]
      omega

/-- Pixel `j` of a painted byte: its value is put where it is painted, and the old one kept where R70 says. -/
theorem paintByte_pixel (mode : PaintMode) {pixels : List (Option Bool)} (hl : pixels.length ≤ 8) {j : Nat} (hj : j < 8) :
    (paintByte mode pixels).put.getLsbD (7 - j) = ((pixels.getD j none) == some true)
      ∧ (paintByte mode pixels).keep.getLsbD (7 - j)
        = (decide (mode = .overprint) || !(pixels.getD j none).isSome) := by
  have hvalue : (packByte (pixels.map fun p => p == some true)).getLsbD (7 - j) = ((pixels.getD j none) == some true) := by
    rw [packByte_pixel (by simpa using hl) hj, List.getD_eq_getElem?_getD, List.getElem?_map, List.getD_eq_getElem?_getD]
    cases pixels[j]? <;> rfl
  have hsome : (packByte (pixels.map Option.isSome)).getLsbD (7 - j) = (pixels.getD j none).isSome := by
    rw [packByte_pixel (by simpa using hl) hj, List.getD_eq_getElem?_getD, List.getElem?_map, List.getD_eq_getElem?_getD]
    cases pixels[j]? <;> rfl
  cases mode with
  | replace =>
    refine ⟨hvalue, ?_⟩
    rw [paintByte, BitVec.getLsbD_not, hsome]
    simp
    omega
  | overprint =>
    refine ⟨hvalue, ?_⟩
    have hones : ∀ j : Fin 8, (0xFF : Byte).getLsbD (7 - j.val) = true := by decide
    exact hones ⟨j, hj⟩

/-- The pixels of a painted line as the byte of pixel `x0` finds them: those before `x0` are not painted. -/
def paintedPixels (x0 : Nat) (visible : List Bool) : List (Option Bool) :=
  List.replicate (x0 % 8) none ++ visible.map some

theorem paintedPixels_get (x0 : Nat) (visible : List Bool) (n : Nat) : (paintedPixels x0 visible).getD n none =
    if x0 % 8 ≤ n then visible[n - x0 % 8]? else none := by
  rw [paintedPixels, List.getD_eq_getElem?_getD, List.getElem?_append, List.length_replicate]
  by_cases h : n < x0 % 8
  · rw [if_pos h, if_neg (by omega), List.getElem?_replicate, if_pos h]
    rfl
  · rw [if_neg h, if_pos (by omega), List.getElem?_map]
    cases visible[n - x0 % 8]? <;> rfl

/-- The cells of a painted line: their number, and each pixel of each. -/
theorem paintCells_pixels (mode : PaintMode) (width x0 : Nat) (line : List Bool) :
    let visible := min line.length (width - x0)
    (paintCells mode width x0 line).length = (if visible = 0 then 0 else (x0 % 8 + visible + 7) / 8)
    ∧ ∀ (i j : Nat) (c : MaskedByte), j < 8 → (paintCells mode width x0 line)[i]? = some c →
        let x := 8 * (x0 / 8 + i) + j
        (x0 ≤ x → x < x0 + visible →
          c.put.getLsbD (7 - j) = line.getD (x - x0) false ∧ c.keep.getLsbD (7 - j) = decide (mode = .overprint))
        ∧ ((x < x0 ∨ x0 + visible ≤ x) → c.put.getLsbD (7 - j) = false ∧ c.keep.getLsbD (7 - j) = true) := by
  intro visible
  have hvis : (line.take (width - x0)).length = visible := by simp [visible, Nat.min_comm]
  have hcells : paintCells mode width x0 line = if (line.take (width - x0)).isEmpty then []
      else (piecesOfEight (paintedPixels x0 (line.take (width - x0))).length
        (paintedPixels x0 (line.take (width - x0)))).map (paintByte mode) := rfl
  have hlen : (paintedPixels x0 (line.take (width - x0))).length = x0 % 8 + visible := by
    rw [paintedPixels, List.length_append, List.length_replicate, List.length_map, hvis]
  by_cases h0 : visible = 0
  · have hnil : (line.take (width - x0)).isEmpty = true := by
      rw [List.isEmpty_iff, ← List.length_eq_zero_iff, hvis, h0]
    rw [hcells, if_pos hnil, if_pos h0]
    exact ⟨rfl, fun i j c _ hc => by simp at hc⟩
  · have hne : ¬(line.take (width - x0)).isEmpty = true := by
      rw [List.isEmpty_iff, ← List.length_eq_zero_iff, hvis]
      exact h0
    rw [hcells, if_neg hne, if_neg h0]
    refine ⟨by rw [List.length_map, piecesOfEight_length _ _ (Nat.le_refl _), hlen], fun i j c hj hc => ?_⟩
    intro x
    rw [List.getElem?_map, piecesOfEight_getElem? _ _ _ (Nat.le_refl _), hlen] at hc
    split at hc
    next hi =>
      simp only [Option.map_some, Option.some.injEq] at hc
      subst hc
      obtain ⟨hput, hkeep⟩ := paintByte_pixel mode
        (pixels := ((paintedPixels x0 (line.take (width - x0))).drop (8 * i)).take 8) (by simp) hj
      have hpixel : (((paintedPixels x0 (line.take (width - x0))).drop (8 * i)).take 8).getD j none
          = if x0 ≤ x then (line.take (width - x0))[x - x0]? else none := by
        have hmod : x0 % 8 ≤ 8 * i + j ↔ x0 ≤ x := by omega
        have hidx : x0 ≤ x → 8 * i + j - x0 % 8 = x - x0 := by omega
        rw [List.getD_eq_getElem?_getD, List.getElem?_take_of_lt hj, List.getElem?_drop, ← List.getD_eq_getElem?_getD,
          paintedPixels_get]
        by_cases hx : x0 ≤ x
        · rw [if_pos (hmod.mpr hx), if_pos hx, hidx hx]
        · rw [if_neg (mt hmod.mp hx), if_neg hx]
      rw [hpixel] at hput hkeep
      refine ⟨fun h1 h2 => ?_, fun hout => ?_⟩
      · have hin : x - x0 < line.length ∧ x - x0 < width - x0 := by omega
        have hget : (line.take (width - x0))[x - x0]? = some (line.getD (x - x0) false) := by
          rw [List.getElem?_take_of_lt hin.2, List.getElem?_eq_getElem hin.1, List.getD_eq_getElem _ _ hin.1]
        rw [if_pos h1, hget] at hput hkeep
        refine ⟨by rw [hput]; cases line.getD (x - x0) false <;> rfl, by rw [hkeep]; simp⟩
      · have hnone : (if x0 ≤ x then (line.take (width - x0))[x - x0]? else none) = none := by
          by_cases hx : x0 ≤ x
          · rw [if_pos hx, List.getElem?_eq_none (by omega)]
          · rw [if_neg hx]
        rw [hnone] at hput hkeep
        exact ⟨hput, by rw [hkeep]; simp⟩
    · cases hc

/-! ### A burst carried out -/

theorem burstDone_does {s : State} {b : Burst} (hr : s.pins.resetAsserted = false) (hb : s.arbiter.burst = some b)
    (hi : b.addr + b.op.length ≤ 268435456) : Answers .burstDone s (s.finishBurst b) := by
  have hin : b.inside = true := decide_eq_true hi
  refine answers_event (f := fun s => s.finishBurst b) ?_ hr rfl
  simp only [exec, execBurstDone, hb, if_pos hin]

/-- A read brings the bytes of plate memory, and changes none of them. -/
theorem finishBurst_read {s : State} {b : Burst} {n : Nat} (h : b.op = .read n) :
    s.finishBurst b = (s.withArbiter { s.arbiter with burst := none }).serve b
      ((List.range n).map fun i => s.memory.read (b.addr + i)) := by
  simp only [State.finishBurst, Memory.after, Memory.got, h]
  rfl

theorem finishBurst_write {s : State} {b : Burst} {cells : List MaskedByte} (h : b.op = .write cells) :
    s.finishBurst b = ((s.withArbiter { s.arbiter with burst := none }).withMemory
      (s.memory.writeRun b.addr cells)).serve b [] := by
  simp only [State.finishBurst, Memory.after, Memory.got, h]
  rfl

theorem lineTransfer_outside {k : Work} {mode : PaintMode} {y : Nat} {line : List Bool}
    (h : k.bandHeight ≤ k.entry.header.y0 + y) : k.lineTransfer mode y line = .none :=
  if_neg (Nat.not_lt.mpr h)

theorem lineTransfer_inside {k : Work} {mode : PaintMode} {y : Nat} {line : List Bool}
    (h : k.entry.header.y0 + y < k.bandHeight) : k.lineTransfer mode y line =
      ⟨k.buffer * mib + bufferLine * (k.entry.header.y0 + y) + k.entry.header.x0 / 8,
        paintCells mode k.width k.entry.header.x0 line⟩ :=
  if_pos h

/-- Settles O38. -/
theorem burstDone : Obligations.BurstDone := by
  refine ⟨fun s b hr hb => ⟨fun n hop hin => ?_, fun cells hop hin hwf => ?_⟩, fun k mode y line => ?_⟩
  · refine ⟨_, burstDone_does hr hb (by rw [hop]; exact hin), ?_⟩
    rw [finishBurst_read hop]
    simp
  · refine ⟨_, burstDone_does hr hb (by rw [hop]; exact hin), ?_⟩
    rw [finishBurst_write hop]
    simp only [testStall_frame, serve_frame, withMemory_memory]
    exact ⟨rfl, Memory.writeRun_epoch _ _ _, fun a ha => Memory.read_writeRun_outside hwf hin ha,
      fun i c hc => Memory.read_writeRun_inside hwf hin hc⟩
  · refine ⟨fun h => by rw [lineTransfer_outside h]; rfl, fun h => ?_⟩
    rw [lineTransfer_inside h]
    exact ⟨rfl, paintCells_pixels mode k.width k.entry.header.x0 line⟩

end Sys2Proof.Machine

/-! The end of a burst (O39): what its requester goes on with, the line of a read that ends, the line a copy passes, the DATA
frame that is written whole, and the screener's progress. -/

namespace Sys2Proof.Machine

/-! ### The requester served -/

theorem serve_fetch {s : State} {b : Burst} {bytes : List Byte} (h : b.who = .fetch) :
    s.serve b bytes = s.fetchBurstDone bytes := by
  simp only [State.serve, h]

theorem serve_intake {s : State} {b : Burst} {bytes : List Byte} (h : b.who = .intake) :
    s.serve b bytes = if b.stale then s else s.intakeBurstDone b.op.length := by
  simp only [State.serve, h]

theorem serve_decoder {s : State} {b : Burst} {bytes : List Byte} {d : Decode} (h : b.who = .decoder)
    (hd : s.decoder = some d) : s.serve b bytes = s.stepDecoder d (d.burstDone b.op bytes) := by
  simp only [State.serve, h, hd]

theorem serve_screener {s : State} {b : Burst} {bytes : List Byte} {d : Screen} (h : b.who = .screener)
    (hd : s.screener = some d) : s.serve b bytes =
      s.withScreener (some (d.burstDone (s.readySet d.work.entry.header.screen) b.op bytes)) := by
  simp only [State.serve, h, hd]

theorem serve_screenTable {s : State} {b : Burst} {bytes : List Byte} (h : b.who = .screenTable) :
    s.serve b bytes = s.tableBurstDone b.op.length := by
  simp only [State.serve, h]

/-! ### The fetch's read, and the lines of a copy -/

theorem fetchBurstDone_eq {s : State} {r : FetchRead} {bytes : List Byte} (h : s.engine.read = some r) :
    s.fetchBurstDone bytes = if r.got.length + bytes.length < r.total then
      s.withEngine { s.engine with read := some { r with got := r.got ++ bytes } }
    else s.endRead { r with got := r.got ++ bytes } := by
  simp only [State.fetchBurstDone, h, List.length_append]

theorem endRead_eq (s : State) (r : FetchRead) : s.endRead r = match r.fate with
    | .join => (s.withEngine ({ s.engine with
        read := none, fifo := s.engine.fifo ++ [⟨r.line, r.got⟩] } : Engine).testUrgency).passLine r.plate r.copy r.line
    | .drop => (s.withEngine { s.engine with read := none }).passLine r.plate r.copy r.line
    | .discard => s.withEngine { s.engine with read := none } := by
  unfold State.endRead
  cases r.fate <;> rfl

/-- The end of the fetch: a fetch that does not run is not urgent. -/
theorem endFetch_eq (e : Engine) : e.endFetch = { e with running := false, urgent := false } := rfl

/-- The end of a band's fetch, where the plate is as the table holds it. -/
theorem endBandFetch_eq {s : State} {p : Plate} {copy b : Nat} {band : Band} (h : p.bands[b]? = some band) :
    s.endBandFetch p copy b = (s.modBand p.id b (Band.fetched (!decide (copy < p.copies)))).withPool ⟨s.pool.free ++
      (band.fetchedBuffer (!decide (copy < p.copies))).toList⟩ := by
  simp only [State.endBandFetch, h]
  rfl

theorem endBandFetch_none {s : State} {p : Plate} {copy b : Nat} (h : p.bands[b]? = none) :
    s.endBandFetch p copy b = s := by
  simp only [State.endBandFetch, h]

theorem taken_of_takenPlate? {s : State} {t : Taken} {p : Plate} (h : s.takenPlate? = some (t, p)) :
    s.engine.taken = some t ∧ s.plate? t.plate = some p := by
  unfold State.takenPlate? at h
  cases ht : s.engine.taken with
  | none => simp [ht] at h
  | some t' =>
    simp only [ht, Option.bind_some, Option.map_eq_some_iff, Prod.mk.injEq] at h
    obtain ⟨p', hp, rfl, rfl⟩ := h
    exact ⟨rfl, hp⟩

theorem passLine_other {s : State} {plate copy line : Nat} (h : s.engine.taken ≠ some ⟨plate, copy⟩) :
    s.passLine plate copy line = s := by
  unfold State.passLine
  cases ht : s.takenPlate? with
  | none => rfl
  | some tp =>
    refine if_neg fun htp => h ?_
    rw [← htp, (taken_of_takenPlate? ht).1]

theorem passLine_taken {s : State} {plate copy line : Nat} {p : Plate} (ht : s.engine.taken = some ⟨plate, copy⟩)
    (hp : s.plate? plate = some p) : s.passLine plate copy line =
      let s1 := if line < p.height ∧ p.lastLine (line / 256) = line then s.endBandFetch p copy (line / 256) else s
      if line + 1 = 4 * p.swaths then s1.withEngine s1.engine.endFetch else s1 := by
  simp only [State.passLine, takenPlate?_eq ht hp, if_pos]

theorem band_fetched_eq (copy copies : Nat) : Band.fetched (!decide (copy < copies)) = fun b =>
    if b.state = .exposing then
      (if ¬copy < copies then { b with state := .exposed, buffer := none } else { b with state := .ready })
    else b := by
  funext b
  simp [Band.fetched]

theorem band_fetchedBuffer_eq (copy copies : Nat) (b : Band) : (b.fetchedBuffer (!decide (copy < copies))).toList =
    if b.state = .exposing ∧ ¬copy < copies then b.buffer.toList else [] := by
  simp only [Band.fetchedBuffer, Bool.not_eq_true', decide_eq_false_iff_not]
  split <;> rfl

/-! ### The DATA frame -/

theorem intakeBurstDone_eq {s : State} {seg : OpenSegment} {payload : List Byte} {w n : Nat}
    (hi : s.feed.intake = .assembling seg) (hw : seg.writing = some (payload, w)) : s.intakeBurstDone n =
      if w + n < payload.length then s.setIntake (.assembling { seg with writing := some (payload, w + n) })
      else s.endPayload seg payload := by
  simp only [State.intakeBurstDone, hi, hw]

/-! ### The screener's progress -/

theorem Screen.advance_still {d : Screen} (h : d.move = none) : d.advance = d := by
  simp only [Screen.advance, h]

theorem Screen.advance_once {d e : Screen} (h : d.move = some e) (he : e.move = none) : d.advance = e := by
  simp only [Screen.advance, h, he]

/-- A screen waits for plate memory or has ended: a transfer is under way, or the line or the row is at its beginning. -/
def Screen.Still (d : Screen) : Prop :=
  d.transfer.cells ≠ [] ∨ d.phase = .ended ∨ d.phase = .pixels [] ∨ ∃ row, d.phase = .readRow row []

theorem Screen.Still.move {d : Screen} (h : d.Still) (hw : 1 ≤ d.work.entry.header.w) (hsw : 1 ≤ d.work.entry.header.sw) :
    d.move = none := by
  unfold Screen.move
  split
  next hc =>
    rcases h with h | h | h | ⟨row, h⟩
    · exact absurd (List.isEmpty_iff.mp hc) h
    · rw [h]
    · rw [h]
      exact if_neg (Nat.not_le.mpr hw)
    · rw [h]
      exact if_neg (Nat.not_le.mpr hsw)
  next => rfl

theorem Screen.startLine_still (d : Screen) : d.startLine.Still := by
  unfold Screen.startLine
  split
  · exact .inr (.inl rfl)
  · split
    · exact .inr (.inr (.inl rfl))
    · exact .inr (.inr (.inr ⟨_, rfl⟩))

/-- The bytes of a row: the row goes on, or it is the row in use and the line's pixels begin. -/
theorem Screen.burstDone_row {d : Screen} {set : Option ScreenParams} {n row : Nat} {got bytes : List Byte}
    (hc : d.transfer.cells = []) (hw : 1 ≤ d.work.entry.header.w) (hsw : 1 ≤ d.work.entry.header.sw)
    (hp : d.phase = .readRow row got) : d.burstDone set (.read n) bytes =
      if got.length + bytes.length < d.work.entry.header.sw then { d with phase := .readRow row (got ++ bytes) }
      else { d with row := some (row, got ++ bytes), phase := .pixels [] } := by
  have hdone : d.burstDone set (.read n) bytes = ({ d with phase := .readRow row (got ++ bytes) } : Screen).advance := by
    simp only [Screen.burstDone, hp]
  have hmove : ({ d with phase := .readRow row (got ++ bytes) } : Screen).move =
      if d.work.entry.header.sw ≤ got.length + bytes.length then
        some { d with row := some (row, got ++ bytes), phase := .pixels [] } else none := by
    simp [Screen.move, hc]
  rw [hdone]
  by_cases h : got.length + bytes.length < d.work.entry.header.sw
  · rw [if_pos h, Screen.advance_still (hmove.trans (if_neg (Nat.not_le.mpr h)))]
  · rw [if_neg h, Screen.advance_once (hmove.trans (if_pos (Nat.le_of_not_lt h)))]
    exact Screen.Still.move (.inr (.inr (.inl rfl))) hw hsw

/-- Where a finished line leads does not depend on the phase. -/
theorem Screen.finishLine_phase (d : Screen) (phase : ScreenPhase) (line : List Bool) :
    ({ d with phase := phase } : Screen).finishLine line = d.finishLine line := by
  simp only [Screen.finishLine, Screen.startLine, Screen.sourceRow]
  split_ifs <;> rfl

/-- The threshold of a pixel: the line goes on, or it is painted and the next line begins. -/
theorem Screen.burstDone_pixel {d : Screen} {p : ScreenParams} {n row : Nat} {samples bytes : List Byte} {laid : List Bool}
    (hc : d.transfer.cells = []) (hw : 1 ≤ d.work.entry.header.w) (hsw : 1 ≤ d.work.entry.header.sw)
    (hp : d.phase = .pixels laid) (hrow : d.row = some (row, samples)) :
    let h := d.work.entry.header
    let line := laid ++ [screenInk p.curve (samples.getD (sourceIndex laid.length h.w h.sw) 0).toNat (decBE bytes)]
    d.burstDone (some p) (.read n) bytes = if line.length < h.w then { d with phase := .pixels line } else d.finishLine line := by
  intro h line
  have hdone : d.burstDone (some p) (.read n) bytes = ({ d with phase := .pixels line } : Screen).advance := by
    simp only [Screen.burstDone, hp]
    simp [Screen.tone, hrow, line, h]
  have hmove : ({ d with phase := .pixels line } : Screen).move =
      if h.w ≤ line.length then some (d.finishLine line) else none := by
    simp [Screen.move, hc, Screen.finishLine_phase, h]
  rw [hdone]
  by_cases hl : line.length < h.w
  · rw [if_pos hl, Screen.advance_still (hmove.trans (if_neg (Nat.not_le.mpr hl)))]
  · rw [if_neg hl, Screen.advance_once (hmove.trans (if_pos (Nat.le_of_not_lt hl)))]
    refine Screen.Still.move (Screen.startLine_still _) ?_ ?_ <;> rw [Screen.finishLine, startLine_work] <;> assumption

/-- A finished line paints, and what comes next is the end, the next line's pixels or the next row's reading. -/
theorem Screen.finishLine_eq {d : Screen} {row : Nat} {samples : List Byte} (hrow : d.row = some (row, samples))
    (line : List Bool) :
    let h := d.work.entry.header
    let next : Screen :=
      { d with lineCount := d.lineCount + 1, transfer := d.work.lineTransfer h.mode d.lineCount line }
    d.finishLine line =
      if h.h ≤ d.lineCount + 1 then { next with phase := .ended }
      else if sourceIndex (d.lineCount + 1) h.h h.sh = row then { next with phase := .pixels [] }
      else { next with phase := .readRow (sourceIndex (d.lineCount + 1) h.h h.sh) [] } := by
  simp [Screen.finishLine, Screen.startLine, Screen.sourceRow, hrow, eq_comm]

/-- A burst of cells written: the screen goes on with the rest of its transfer. -/
theorem Screen.burstDone_write {d : Screen} {set : Option ScreenParams} {cells : List MaskedByte} {bytes : List Byte}
    (h : cells.length < d.transfer.cells.length
      ∨ 1 ≤ d.work.entry.header.w ∧ 1 ≤ d.work.entry.header.sw
        ∧ (d.phase = .ended ∨ d.phase = .pixels [] ∨ ∃ row, d.phase = .readRow row [])) :
    d.burstDone set (.write cells) bytes =
      { d with transfer := ⟨d.transfer.addr + cells.length, d.transfer.cells.drop cells.length⟩ } := by
  refine Screen.advance_still ?_
  rcases h with h | ⟨hw, hsw, h⟩
  · refine if_neg ?_
    simp only [Transfer.advance, List.isEmpty_iff, List.drop_eq_nil_iff, Nat.not_le]
    exact h
  · exact Screen.Still.move (.inr h) hw hsw

/-- Settles O39. -/
theorem burstServesRequester : Obligations.BurstServesRequester := by
  refine ⟨fun s b hr hb => ?_, fun s r bytes h => ⟨fun hl => ?_, fun hl => ?_⟩, fun s plate copy line =>
    ⟨passLine_other, fun p ht hp => ?_⟩, fun s seg payload w n hi hw => ⟨fun hl => ?_, fun hl => ?_⟩, fun d set => ?_⟩
  · intro free
    refine ⟨fun n hop hin => ?_, fun cells hop hin => ?_⟩
    · intro bytes
      have hdone : Answers .burstDone s (free.serve b bytes) := by
        have := burstDone_does hr hb (by rw [hop]; exact hin)
        rwa [finishBurst_read hop] at this
      refine ⟨fun hwho => ?_, fun hwho d hd => ?_, fun hwho d hd => ?_⟩
      · rwa [serve_fetch hwho] at hdone
      · rwa [serve_decoder (s := free) hwho hd, hop] at hdone
      · rwa [serve_screener (s := free) hwho hd, hop] at hdone
    · intro written
      have hdone : Answers .burstDone s (written.serve b []) := by
        have := burstDone_does hr hb (by rw [hop]; exact hin)
        rwa [finishBurst_write hop] at this
      refine ⟨fun hwho hst => ?_, fun hwho hst => ?_, fun hwho d hd => ?_, fun hwho d hd => ?_, fun hwho => ?_⟩
      · rwa [serve_intake hwho, if_pos hst] at hdone
      · rwa [serve_intake hwho, if_neg (by simp [hst]), hop] at hdone
      · rwa [serve_decoder (s := written) hwho hd, hop] at hdone
      · rwa [serve_screener (s := written) hwho hd, hop] at hdone
      · rwa [serve_screenTable hwho, hop] at hdone
  · rw [fetchBurstDone_eq h, if_pos hl]
  · rw [fetchBurstDone_eq h, if_neg (Nat.not_lt.mpr hl)]
    refine (endRead_eq s _).trans ?_
    cases r.fate <;> rfl
  · intro final ended band s1
    have hs1 : (if line < p.height ∧ p.lastLine (line / 256) = line then s.endBandFetch p copy (line / 256) else s) = s1 := by
      simp only [s1, band]
      by_cases hlast : line < p.height ∧ p.lastLine (line / 256) = line
      · rw [if_pos hlast]
        cases hb : p.bands[line / 256]? with
        | none => rw [endBandFetch_none hb, if_neg (fun h => h.2.2 rfl)]
        | some b =>
          rw [endBandFetch_eq hb, if_pos ⟨hlast.1, hlast.2, by simp⟩, band_fetched_eq, band_fetchedBuffer_eq,
            (plate?_some hp).1]
      · rw [if_neg hlast, if_neg (fun h => hlast ⟨h.1, h.2.1⟩)]
    have hengine : s1.engine = s.engine := by
      rw [← hs1]
      split_ifs <;> simp
    rw [passLine_taken ht hp]
    simp only [hs1, hengine, endFetch_eq]
    rfl
  · rw [intakeBurstDone_eq hi hw, if_pos hl]
    rfl
  · rw [intakeBurstDone_eq hi hw, if_neg (Nat.not_lt.mpr hl)]
    rfl
  · intro h
    refine ⟨fun cells bytes hcase => Screen.burstDone_write hcase, fun hc hw hsw n bytes =>
      ⟨fun row got hp => Screen.burstDone_row hc hw hsw hp, fun laid row samples p hp hrow hset => ?_⟩⟩
    intro tone line next
    rw [hset, Screen.burstDone_pixel hc hw hsw hp hrow, Screen.finishLine_eq hrow]

end Sys2Proof.Machine

/-! The LINE code (O32): the commands of a sender, read number by number, the numbers that make a code error, and a decode's
moves till it waits for plate memory or has ended. -/

namespace Sys2Proof.Machine

/-! ### The number form -/

theorem byteOf_toNat {n : Nat} (h : n < 256) : (byteOf n).toNat = n := by
  simp only [byteOf, BitVec.toNat_ofNat]
  omega

/-- The fewest bytes of a number spell it. -/
theorem numberBytes_spells {v : Nat} (h : v < 2097152) : Spells (numberBytes v) v := by
  unfold numberBytes
  split
  next h1 =>
    refine ⟨[], byteOf v, rfl, by simp, by simp, ?_, ?_⟩
    · rw [byteOf_toNat (by omega)]; omega
    · simp only [List.foldl_cons, List.foldl_nil, byteOf_toNat (show v < 256 by omega)]; omega
  · split
    next h1 =>
      have hb : (byteOf (128 + v / 128)).toNat = 128 + v / 128 := byteOf_toNat (by omega)
      have hl : (byteOf (v % 128)).toNat = v % 128 := byteOf_toNat (by omega)
      refine ⟨[byteOf (128 + v / 128)], byteOf (v % 128), rfl, by simp, ?_, by omega, ?_⟩
      · simp only [List.mem_singleton, forall_eq]
        omega
      · simp only [List.foldl_cons, List.foldl_nil]
        omega
    next h1 =>
      have ha : (byteOf (128 + v / 16384)).toNat = 128 + v / 16384 := byteOf_toNat (by omega)
      have hb : (byteOf (128 + v / 128 % 128)).toNat = 128 + v / 128 % 128 := byteOf_toNat (by omega)
      have hl : (byteOf (v % 128)).toNat = v % 128 := byteOf_toNat (by omega)
      refine ⟨[byteOf (128 + v / 16384), byteOf (128 + v / 128 % 128)], byteOf (v % 128), rfl, by simp, ?_, by omega, ?_⟩
      · simp only [List.mem_cons, List.not_mem_nil, or_false, forall_eq_or_imp, forall_eq]
        omega
      · simp only [List.foldl_cons, List.foldl_nil]
        omega

/-- The fewest bytes of each number of a list spell the list. -/
theorem numberBytes_all_spell {l : List Nat} (h : ∀ n ∈ l, n < 2097152) : List.Forall₂ Spells (l.map numberBytes) l :=
  List.forall₂_map_left_iff.mpr (List.forall₂_same.mpr fun n hn => numberBytes_spells (h n hn))

/-! ### RUNS -/

theorem Decode.eat_opening {d : Decode} (h : d.reader = .opening) (b : Byte) : d.eat b = d.openCommand b.toNat := by
  simp only [Decode.eat, h]

theorem Decode.eat_runs_code {d : Decode} (h : d.reader = .opening) : d.eat 0x80 = d.await .runCount :=
  Decode.eat_opening h _

theorem Decode.eat_flip_code {d : Decode} (h : d.reader = .opening) : d.eat 0x81 = d.await .spanCount :=
  Decode.eat_opening h _

/-- The run count read. -/
theorem Decode.eat_run_count {d : Decode} {count : List Byte} {n : Nat} (h : d.reader = .opening) (hc : Spells count n)
    (h1 : 1 ≤ n) (hn : n ≤ 32768) :
    (0x80 :: count).foldl Decode.eat d = d.await (.runLength n false true []) := by
  rw [List.foldl_cons, Decode.eat_runs_code h, Decode.eat_number rfl hc, Decode.await_takeNumber]
  exact if_neg (by omega)

/-- A RUNS command with runs still to come: the line they have laid, and the length awaited. -/
theorem Decode.eat_runs_begun {d : Decode} {count : List Byte} {n : Nat} {spelled : List (List Byte)} {runs : List Nat}
    (h : d.reader = .opening) (hc : Spells count n) (hn : n ≤ 32768) (hs : List.Forall₂ Spells spelled runs)
    (hz : ∀ x ∈ runs.tail, x ≠ 0) (hw : runs.sum ≤ d.work.entry.header.w) (hl : runs.length < n) :
    (0x80 :: count ++ spelled.flatten).foldl Decode.eat d =
      d.await (.runLength (n - runs.length) (decide (runs.length % 2 = 1)) runs.isEmpty (runsLine false runs)) := by
  rw [List.foldl_append, Decode.eat_run_count h hc (by omega) hn,
    Decode.eat_runs spelled runs hs _ n false true [] rfl hl (by rw [Decode.await_work]; simpa using hw) (by simpa using hz), Decode.await_await]
  simp

/-- The last run length, up to the width: the line of the runs is produced. -/
theorem Decode.takeRun_last {d : Decode} {runs : List Nat} {v : Nat} (hv : runs ≠ [] → v ≠ 0)
    (hw : runs.sum + v = d.work.entry.header.w) :
    d.takeRun 1 (decide (runs.length % 2 = 1)) runs.isEmpty (runsLine false runs) v
      = d.produce (runsLine false (runs ++ [v])) := by
  have hfirst : ¬(v = 0 ∧ runs.isEmpty = false) := fun ⟨h0, he⟩ => hv (by simpa using he) h0
  have hlen : (runsLine false runs ++ List.replicate v (decide (runs.length % 2 = 1))).length = d.work.entry.header.w := by
    simp [runsLine_length, hw]
  simp only [Decode.takeRun, runsLine_append, Bool.false_xor]
  rw [if_neg hfirst, if_neg (by rw [runsLine_length]; omega), if_neg (by omega), if_pos hlen]

/-- A run length that makes a code error (R66, R72). -/
theorem Decode.takeRun_wrong {d : Decode} {runs : List Nat} {n v : Nat}
    (h : v = 0 ∧ runs ≠ [] ∨ d.work.entry.header.w < runs.sum + v
      ∨ runs.length + 1 = n ∧ runs.sum + v < d.work.entry.header.w) :
    d.takeRun (n - runs.length) (decide (runs.length % 2 = 1)) runs.isEmpty (runsLine false runs) v = d.fail := by
  have hlen : (runsLine false runs ++ List.replicate v (decide (runs.length % 2 = 1))).length = runs.sum + v := by
    simp [runsLine_length]
  simp only [Decode.takeRun]
  rw [hlen, runsLine_length]
  split_ifs with h1 h2 h3 h4
  · rfl
  · rfl
  · rcases h with ⟨h0, hne⟩ | h | h
    · exact absurd ⟨h0, by simpa using hne⟩ h1
    · omega
    · omega
  · rcases h with ⟨h0, hne⟩ | h | h
    · exact absurd ⟨h0, by simpa using hne⟩ h1
    · omega
    · omega
  · rfl

/-- A RUNS command produces the line of its runs. -/
theorem Decode.eat_runs_whole {d : Decode} {count : List Byte} {spelled : List (List Byte)} {runs : List Nat}
    (h : d.reader = .opening) (hc : Spells count runs.length) (h1 : runs ≠ []) (hn : runs.length ≤ 32768)
    (hs : List.Forall₂ Spells spelled runs) (hz : ∀ x ∈ runs.tail, x ≠ 0) (hw : runs.sum = d.work.entry.header.w) :
    (0x80 :: count ++ spelled.flatten).foldl Decode.eat d = d.produce (runsLine false runs) := by
  obtain ⟨before, v, rfl⟩ : ∃ before v, runs = before ++ [v] :=
    ⟨_, _, (List.dropLast_append_getLast h1).symm⟩
  rw [List.length_append] at hc hn
  rw [List.sum_append, List.sum_singleton] at hw
  obtain ⟨sb, sv, hsb, hsv, rfl⟩ : ∃ sb sv, List.Forall₂ Spells sb before ∧ Spells sv v ∧ spelled = sb ++ [sv] := by
    have htail := List.forall₂_drop_append _ _ _ hs
    obtain ⟨sv, rest, hsv, hrest, hdrop⟩ := List.forall₂_cons_right_iff.mp htail
    rw [List.forall₂_nil_right_iff] at hrest
    refine ⟨_, sv, List.forall₂_take_append _ _ _ hs, hsv, ?_⟩
    rw [← hrest, ← hdrop, List.take_append_drop]
  have hzb : ∀ x ∈ before.tail, x ≠ 0 := fun x hx => hz x (by
    cases before with
    | nil => cases hx
    | cons a r => simp only [List.tail_cons] at hx; simp [hx])
  have hzv : before ≠ [] → v ≠ 0 := fun hb => hz v (by
    cases before with
    | nil => exact absurd rfl hb
    | cons a r => simp)
  have hbegun := Decode.eat_runs_begun h hc hn hsb hzb (by omega) (by simp)
  rw [List.flatten_append, ← List.append_assoc, List.foldl_append, hbegun, List.flatten_singleton,
    Decode.eat_number rfl hsv, Decode.await_takeNumber]
  have hleft : before.length + [v].length - before.length = 1 := by simp
  rw [hleft]
  exact Decode.takeRun_last hzv hw

/-! ### FLIP -/

/-- The span count read. -/
theorem Decode.eat_span_count {d : Decode} {count : List Byte} {n : Nat} (h : d.reader = .opening) (hc : Spells count n)
    (hn : n ≤ 16384) : (0x81 :: count).foldl Decode.eat d =
      if n = 0 then d.produce d.reference else d.await (.spanSkip n 0 d.reference) := by
  rw [List.foldl_cons, Decode.eat_flip_code h, Decode.eat_number rfl hc, Decode.await_takeNumber]
  exact if_neg (by omega)

/-- A FLIP command with spans still to come: the line they have flipped, and the skip awaited. -/
theorem Decode.eat_spans_begun {d : Decode} {count : List Byte} {n : Nat} {spelled : List (List Byte × List Byte)}
    {spans : List (Nat × Nat)} (h : d.reader = .opening) (hc : Spells count n) (hn : n ≤ 16384)
    (hs : List.Forall₂ (fun b x => Spells b.1 x.1 ∧ Spells b.2 x.2) spelled spans) (hz : ∀ x ∈ spans, x.2 ≠ 0)
    (hw : (spans.map fun x => x.1 + x.2).sum ≤ d.work.entry.header.w) (hl : spans.length < n) :
    (0x81 :: count ++ spelled.flatMap fun b => b.1 ++ b.2).foldl Decode.eat d =
      d.await (.spanSkip (n - spans.length) (spans.map fun x => x.1 + x.2).sum (flipLine 0 spans d.reference)) := by
  rw [List.foldl_append, Decode.eat_span_count h hc hn, if_neg (by omega),
    Decode.eat_spans spelled spans hs _ n 0 d.reference rfl hl (by rw [Decode.await_work]; simpa using hw) hz, Decode.await_await, Nat.zero_add]

theorem flipLine_append (pos : Nat) (spans : List (Nat × Nat)) (x : Nat × Nat) (line : List Bool) :
    flipLine pos (spans ++ [x]) line =
      invertSpan (pos + (spans.map fun x => x.1 + x.2).sum + x.1) x.2 (flipLine pos spans line) := by
  induction spans generalizing pos line with
  | nil => simp [flipLine]
  | cons y r ih =>
    rw [List.cons_append, flipLine, ih, flipLine, List.map_cons, List.sum_cons]
    congr 1
    omega

/-- A FLIP command produces the reference line with its spans inverted. -/
theorem Decode.eat_flip_whole {d : Decode} {count : List Byte} {spelled : List (List Byte × List Byte)}
    {spans : List (Nat × Nat)} (h : d.reader = .opening) (hc : Spells count spans.length) (hn : spans.length ≤ 16384)
    (hs : List.Forall₂ (fun b x => Spells b.1 x.1 ∧ Spells b.2 x.2) spelled spans) (hz : ∀ x ∈ spans, x.2 ≠ 0)
    (hw : (spans.map fun x => x.1 + x.2).sum ≤ d.work.entry.header.w) :
    (0x81 :: count ++ spelled.flatMap fun b => b.1 ++ b.2).foldl Decode.eat d = d.produce (flipLine 0 spans d.reference) := by
  rcases List.eq_nil_or_concat spans with rfl | ⟨before, x, hcat⟩
  · rw [List.forall₂_nil_right_iff] at hs
    subst hs
    rw [List.flatMap_nil, List.append_nil, Decode.eat_span_count h hc hn]
    rfl
  · obtain rfl : spans = before ++ [x] := by simpa using hcat
    obtain ⟨sb, sx, hsb, hsx, rfl⟩ : ∃ sb sx, List.Forall₂ (fun b x => Spells b.1 x.1 ∧ Spells b.2 x.2) sb before
        ∧ (Spells (Prod.fst sx) x.1 ∧ Spells (Prod.snd sx) x.2) ∧ spelled = sb ++ [sx] := by
      have htail := List.forall₂_drop_append _ _ _ hs
      obtain ⟨sx, rest, hsx, hrest, hdrop⟩ := List.forall₂_cons_right_iff.mp htail
      rw [List.forall₂_nil_right_iff] at hrest
      refine ⟨_, sx, List.forall₂_take_append _ _ _ hs, hsx, ?_⟩
      rw [← hrest, ← hdrop, List.take_append_drop]
    rw [List.length_append, List.length_singleton] at hc hn
    rw [List.map_append, List.sum_append, List.map_singleton, List.sum_singleton] at hw
    have hbegun := Decode.eat_spans_begun h hc hn hsb (fun y hy => hz y (by simp [hy])) (by omega) (by simp)
    have hskip : (d.await (.spanSkip (before.length + 1 - before.length) (before.map fun x => x.1 + x.2).sum
        (flipLine 0 before d.reference))).takeNumber (.spanSkip (before.length + 1 - before.length)
          (before.map fun x => x.1 + x.2).sum (flipLine 0 before d.reference)) x.1
        = d.await (.spanLength 1 ((before.map fun x => x.1 + x.2).sum + x.1) (flipLine 0 before d.reference)) := by
      rw [Decode.await_takeNumber, Nat.add_sub_cancel_left]
      rfl
    rw [List.flatMap_append, ← List.append_assoc, List.foldl_append, hbegun, List.flatMap_singleton, List.foldl_append,
      Decode.eat_number rfl hsx.1, hskip, Decode.eat_number rfl hsx.2, Decode.await_takeNumber, flipLine_append, Nat.zero_add]
    simp only [Decode.takeNumber, Decode.takeSpan]
    rw [if_neg (hz x (by simp)), if_neg (by omega), if_neg (by omega)]

/-- The skip of a span that is malformed, and the length that makes a code error. -/
theorem Decode.takeSpan_wrong {d : Decode} {left start v : Nat} {line : List Bool}
    (h : v = 0 ∨ d.work.entry.header.w < start + v) : d.takeSpan left start line v = d.fail := by
  simp only [Decode.takeSpan]
  split_ifs with h1 h2 h3
  · rfl
  · rfl
  · exact absurd h (by simp [h1, h2])
  · exact absurd h (by simp [h1, h2])

/-! ### WHITE and SAME, and the bytes that open no command -/

theorem Decode.openCommand_repeat {d : Decode} {b : Nat} (h : b < 0x80) : d.openCommand b =
    (let k := b % 0x40 + 1
      if d.work.entry.header.h < d.lineCount + k then d.fail
      else { d with
        reference := if b < 0x40 then List.replicate d.work.entry.header.w false else d.reference
        repeatLeft := k }) := by
  by_cases h1 : b < 0x40
  · have hmod : b % 0x40 = b := Nat.mod_eq_of_lt h1
    simp only [Decode.openCommand, if_pos h1, hmod, Decode.repeatLine]
  · have hmod : b % 0x40 = b - 0x40 := by omega
    simp only [Decode.openCommand, if_neg h1, if_pos h, hmod, Decode.repeatLine]

theorem Decode.openCommand_none {d : Decode} {b : Nat} (h : 0x82 ≤ b) : d.openCommand b = d.fail := by
  simp only [Decode.openCommand]
  rw [if_neg (by omega), if_neg (by omega), if_neg (by omega), if_neg (by omega)]

/-! ### The moves, by phase -/

theorem Decode.move_of_transfer {d : Decode} (h : d.transfer.cells ≠ []) : d.move = none := if_neg (by simpa using h)

theorem Decode.move_ended {d : Decode} (h : d.phase = .ended) : d.move = none := by
  unfold Decode.move
  rw [h]
  exact ite_self _

theorem Decode.move_fill {d : Decode} {line : Nat} (hc : d.transfer.cells = []) (h : d.phase = .fill line) :
    d.move = some (if line < 256 then { d with phase := .fill (line + 1), transfer := d.work.fillTransfer line }
      else { d with phase := .code }) := by
  simp [Decode.move, hc, h]

theorem Decode.move_whiten {d : Decode} {y : Nat} (hc : d.transfer.cells = []) (h : d.phase = .whiten y) :
    d.move = some (if y < d.work.entry.header.h then
        { d with
          phase := .whiten (y + 1)
          transfer := d.work.lineTransfer .replace y (List.replicate d.work.entry.header.w false) }
      else { d with phase := .ended }) := by
  simp [Decode.move, hc, h]

theorem Decode.move_code {d : Decode} (hc : d.transfer.cells = []) (h : d.phase = .code) : d.move = d.codeStep := by
  simp [Decode.move, hc, h]

theorem Decode.codeStep_over {d : Decode} (h : d.work.entry.header.h ≤ d.lineCount) : d.codeStep =
    some (if d.readPos = d.work.entry.header.declared then { d with phase := .ended } else d.trailing) := if_pos h

theorem Decode.codeStep_repeat {d : Decode} {n : Nat} (h : d.lineCount < d.work.entry.header.h)
    (hn : d.repeatLeft = n + 1) : d.codeStep = some { d.produce d.reference with repeatLeft := n } := by
  have hstep : d.codeStep = some { d.produce d.reference with repeatLeft := d.repeatLeft - 1 } :=
    (if_neg (Nat.not_le.mpr h)).trans (if_pos (by omega))
  rw [hstep, hn]
  rfl

theorem Decode.codeStep_byte {d : Decode} (h : d.lineCount < d.work.entry.header.h) (h0 : d.repeatLeft = 0) :
    d.codeStep = match d.ahead with
      | b :: rest => some ({ d with ahead := rest, readPos := d.readPos + 1 }.eat b)
      | [] => if d.readPos < d.work.entry.header.declared then none else some d.fail :=
  (if_neg (Nat.not_le.mpr h)).trans (if_neg (by omega))

/-! ### A decode's moves -/

/-- What one byte leaves: a code error, a line produced, or the decode with its command's state changed. -/
theorem Decode.eat_cases (d : Decode) (b : Byte) : d.eat b = d.fail ∨ (∃ line, d.eat b = d.produce line)
    ∨ ∃ reader reference n, d.eat b = { d with reader := reader, reference := reference, repeatLeft := n } := by
  have hrepeat (k : Nat) (line : List Bool) : d.repeatLine k line = d.fail ∨ (∃ l, d.repeatLine k line = d.produce l)
      ∨ ∃ reader reference n, d.repeatLine k line = { d with reader := reader, reference := reference, repeatLeft := n } := by
    unfold Decode.repeatLine
    split_ifs
    · exact .inl rfl
    · exact .inr (.inr ⟨_, _, _, rfl⟩)
  have hawait (what : NumberOf) : ∃ reader reference n,
      d.await what = { d with reader := reader, reference := reference, repeatLeft := n } := ⟨_, _, _, rfl⟩
  unfold Decode.eat
  split
  · unfold Decode.openCommand
    split_ifs
    · exact hrepeat _ _
    · exact hrepeat _ _
    · exact .inr (.inr ⟨_, _, _, rfl⟩)
    · exact .inr (.inr ⟨_, _, _, rfl⟩)
    · exact .inl rfl
  · dsimp only
    split_ifs
    · unfold Decode.takeNumber Decode.takeRun Decode.takeSpan
      split
      · split_ifs
        · exact .inl rfl
        · exact .inr (.inr (hawait _))
      · dsimp only
        split_ifs
        · exact .inl rfl
        · exact .inl rfl
        · exact .inr (.inr (hawait _))
        · exact .inr (.inl ⟨_, rfl⟩)
        · exact .inl rfl
      · split_ifs
        · exact .inl rfl
        · exact .inr (.inl ⟨_, rfl⟩)
        · exact .inr (.inr (hawait _))
      · exact .inr (.inr (hawait _))
      · split_ifs
        · exact .inl rfl
        · exact .inl rfl
        · exact .inr (.inr (hawait _))
        · exact .inr (.inl ⟨_, rfl⟩)
    · exact .inl rfl
    · exact .inr (.inr ⟨_, _, _, rfl⟩)

theorem fillTransfer_cells (k : Work) (line : Nat) : (k.fillTransfer line).cells ≠ [] :=
  List.ne_nil_of_length_pos (by rw [Work.fillTransfer, List.length_replicate]; decide)

/-- A bound on the moves of a decode: none while a transfer is under way, else what its phase leaves. -/
def Decode.movesLeft (d : Decode) : Nat :=
  if d.transfer.cells.isEmpty then
    match d.phase with
    | .ended => 0
    | .whiten y => d.work.entry.header.h - y + 1
    | .code => d.ahead.length + (d.work.entry.header.h - d.lineCount) + 2
    | .fill _ => d.ahead.length + (d.work.entry.header.h - d.lineCount) + 3
  else 0

theorem Decode.movesLeft_of_transfer {d : Decode} (h : d.transfer.cells ≠ []) : d.movesLeft = 0 := if_neg (by simpa using h)

theorem Decode.movesLeft_ended {d : Decode} (h : d.phase = .ended) : d.movesLeft = 0 := by
  simp [Decode.movesLeft, h]

theorem Decode.movesLeft_whiten {d : Decode} {y : Nat} (h : d.phase = .whiten y) :
    d.movesLeft = if d.transfer.cells.isEmpty then d.work.entry.header.h - y + 1 else 0 := by
  simp only [Decode.movesLeft, h]

theorem Decode.movesLeft_code {d : Decode} (h : d.phase = .code) : d.movesLeft =
    if d.transfer.cells.isEmpty then d.ahead.length + (d.work.entry.header.h - d.lineCount) + 2 else 0 := by
  simp only [Decode.movesLeft, h]

theorem Decode.movesLeft_fill {d : Decode} {line : Nat} (h : d.phase = .fill line) : d.movesLeft =
    if d.transfer.cells.isEmpty then d.ahead.length + (d.work.entry.header.h - d.lineCount) + 3 else 0 := by
  simp only [Decode.movesLeft, h]

theorem Decode.movesLeft_whiten_le {d : Decode} {y : Nat} (h : d.phase = .whiten y) :
    d.movesLeft ≤ d.work.entry.header.h - y + 1 := by
  rw [Decode.movesLeft_whiten h]
  split <;> omega

theorem Decode.movesLeft_code_le {d : Decode} (h : d.phase = .code) :
    d.movesLeft ≤ d.ahead.length + (d.work.entry.header.h - d.lineCount) + 2 := by
  rw [Decode.movesLeft_code h]
  split <;> omega

/-- No more moves are left than the bytes read ahead and the height allow. -/
theorem Decode.movesLeft_le (d : Decode) : d.movesLeft ≤ d.ahead.length + d.work.entry.header.h + 3 := by
  cases h : d.phase with
  | ended => rw [Decode.movesLeft_ended h]; exact Nat.zero_le _
  | whiten y => exact Nat.le_trans (Decode.movesLeft_whiten_le h) (by omega)
  | code => exact Nat.le_trans (Decode.movesLeft_code_le h) (by omega)
  | fill line =>
    rw [Decode.movesLeft_fill h]
    split <;> omega

/-- After a code error at most the lines left are whitened. -/
theorem Decode.movesLeft_fail (d : Decode) : d.fail.movesLeft ≤ d.work.entry.header.h - d.lineCount + 1 := by
  cases hm : d.work.entry.header.mode with
  | replace => exact Decode.movesLeft_whiten_le (d := d.fail) (by simp [Decode.fail, hm])
  | overprint =>
    rw [Decode.movesLeft_ended (d := d.fail) (by simp [Decode.fail, hm])]
    omega

theorem Decode.codeStep_movesLeft {d d' : Decode} (hp : d.phase = .code) (h : d.codeStep = some d') :
    d'.movesLeft < d.ahead.length + (d.work.entry.header.h - d.lineCount) + 2 := by
  have hproduce {e : Decode} (hphase : e.phase = .code) (hwork : e.work = d.work) (ha : e.ahead.length ≤ d.ahead.length)
      (hc : e.lineCount = d.lineCount + 1) (hh : d.lineCount < d.work.entry.header.h) :
      e.movesLeft < d.ahead.length + (d.work.entry.header.h - d.lineCount) + 2 := by
    have := Decode.movesLeft_code_le hphase
    rw [hwork, hc] at this
    omega
  rcases Nat.lt_or_ge d.lineCount d.work.entry.header.h with hl | hl
  · cases hr : d.repeatLeft with
    | succ n =>
      rw [Decode.codeStep_repeat hl hr] at h
      obtain rfl := Option.some.inj h
      exact hproduce hp rfl (Nat.le_refl _) rfl hl
    | zero =>
      rw [Decode.codeStep_byte hl hr] at h
      split at h
      next b rest ha =>
        obtain rfl := Option.some.inj h
        have hlen : d.ahead.length = rest.length + 1 := by rw [ha]; rfl
        rcases Decode.eat_cases { d with ahead := rest, readPos := d.readPos + 1 } b with he | ⟨line, he⟩ | ⟨r, l, n, he⟩
        · rw [he]
          refine Nat.lt_of_le_of_lt (Decode.movesLeft_fail _) ?_
          dsimp only
          omega
        · rw [he]
          exact hproduce hp rfl (Nat.le_of_lt (by rw [hlen]; exact Nat.lt_succ_self _)) rfl hl
        · rw [he]
          refine Nat.lt_of_le_of_lt (Decode.movesLeft_code_le hp) ?_
          dsimp only
          omega
      · split at h
        · cases h
        · obtain rfl := Option.some.inj h
          refine Nat.lt_of_le_of_lt (Decode.movesLeft_fail _) ?_
          omega
  · rw [Decode.codeStep_over hl] at h
    obtain rfl := Option.some.inj h
    rw [Decode.movesLeft_ended (by split <;> rfl)]
    omega

/-- Each move leaves fewer. -/
theorem Decode.move_movesLeft {d d' : Decode} (h : d.move = some d') : d'.movesLeft < d.movesLeft := by
  by_cases hc : d.transfer.cells = []
  · have hempty : d.transfer.cells.isEmpty = true := by simp [hc]
    cases hp : d.phase with
    | ended => rw [Decode.move_ended hp] at h; cases h
    | fill line =>
      rw [Decode.move_fill hc hp] at h
      obtain rfl := Option.some.inj h
      rw [Decode.movesLeft_fill hp, if_pos hempty]
      split
      · rw [Decode.movesLeft_of_transfer (fillTransfer_cells _ _)]
        exact Nat.succ_pos _
      · exact Nat.lt_succ_of_le (Decode.movesLeft_code_le (d := { d with phase := .code }) rfl)
    | whiten y =>
      rw [Decode.move_whiten hc hp] at h
      obtain rfl := Option.some.inj h
      rw [Decode.movesLeft_whiten hp, if_pos hempty]
      split
      next hy =>
        refine Nat.lt_of_le_of_lt (Decode.movesLeft_whiten_le (y := y + 1) rfl) ?_
        dsimp only
        omega
      · rw [Decode.movesLeft_ended rfl]
        exact Nat.succ_pos _
    | code =>
      rw [Decode.movesLeft_code hp, if_pos hempty]
      exact Decode.codeStep_movesLeft hp (Decode.move_code hc hp ▸ h)
  · rw [Decode.move_of_transfer hc] at h
    cases h

theorem Decode.moves_none {d : Decode} (h : d.move = none) (n : Nat) : Decode.moves n d = d := by
  cases n with
  | zero => rfl
  | succ n => simp only [Decode.moves, h]

/-- More moves than are left change nothing. -/
theorem Decode.moves_enough : ∀ (n m : Nat) (d : Decode), d.movesLeft ≤ n → d.movesLeft ≤ m →
    Decode.moves n d = Decode.moves m d
  | n, m, d, hn, hm => by
    cases h : d.move with
    | none => rw [Decode.moves_none h, Decode.moves_none h]
    | some d' =>
      have hlt := Decode.move_movesLeft h
      cases n with
      | zero => omega
      | succ n =>
        cases m with
        | zero => omega
        | succ m =>
          simp only [Decode.moves, h]
          exact Decode.moves_enough n m d' (by omega) (by omega)

theorem Decode.advance_none {d : Decode} (h : d.move = none) : d.advance = d := Decode.moves_none h _

/-- The decoder goes on by moves. -/
theorem Decode.advance_move {d d' : Decode} (h : d.move = some d') : d.advance = d'.advance := by
  have hlt := Decode.move_movesLeft h
  have hd := d.movesLeft_le
  have hd' := d'.movesLeft_le
  have hstep : d.advance = Decode.moves (d.ahead.length + 2 * d.work.entry.header.h + 7) d' := by
    simp only [Decode.advance, Decode.moves, h]
  rw [hstep, Decode.advance]
  exact Decode.moves_enough _ _ d' (by omega) (by omega)

/-- Settles O32. -/
theorem lineCode : Obligations.LineCode := by
  refine ⟨fun d hr => ⟨fun runs hne hlen hsum hw hz => ?_, fun spans hlen hsum hw hz => ?_, fun b hb => ?_, fun b hb => ?_,
    fun count => ⟨fun he => ?_, fun he => ?_⟩, fun count n spelled runs hc h1 hn hs hz hw => ?_,
    fun count n spelled spans hc hn hs hz => ?_⟩, fun d => ?_⟩
  · have hmem : ∀ n ∈ runs, n < 2097152 := fun n hn => by have := List.single_le_sum (by simp) n hn; omega
    have hspell := numberBytes_all_spell hmem
    have hwhole := Decode.eat_runs_whole hr (numberBytes_spells (v := runs.length) (by omega)) hne hlen hspell hz hsum
    rwa [← List.flatMap_def] at hwhole
  · have hmem : ∀ x ∈ spans, x.1 + x.2 < 2097152 := fun x hx => by
      have := List.single_le_sum (by simp) (x.1 + x.2) (List.mem_map_of_mem (f := fun x => x.1 + x.2) hx)
      omega
    have hspell : List.Forall₂ (fun b x => Spells b.1 x.1 ∧ Spells b.2 x.2)
        (spans.map fun x => (numberBytes x.1, numberBytes x.2)) spans :=
      List.forall₂_map_left_iff.mpr (List.forall₂_same.mpr fun x hx =>
        ⟨numberBytes_spells (by have := hmem x hx; omega), numberBytes_spells (by have := hmem x hx; omega)⟩)
    have hwhole := Decode.eat_flip_whole hr (numberBytes_spells (v := spans.length) (by omega)) hlen hspell hz hsum
    rwa [List.flatMap_map] at hwhole
  · rw [Decode.eat_opening hr, Decode.openCommand_repeat hb]
  · rw [Decode.eat_opening hr, Decode.openCommand_none hb]
  · rw [List.foldl_cons, Decode.eat_runs_code hr]
    exact Decode.eat_errs rfl he fun v hv => if_pos hv
  · rw [List.foldl_cons, Decode.eat_flip_code hr]
    exact Decode.eat_errs rfl he fun v hv => if_pos hv
  · intro taken
    refine ⟨fun hlen hsum => ?_, fun length hlen he => ?_⟩
    · subst hlen
      exact Decode.eat_runs_whole hr hc (by rintro rfl; simp at h1) hn hs hz hsum
    · rw [List.foldl_append, Decode.eat_runs_begun hr hc hn hs hz hw hlen]
      refine Decode.eat_errs rfl he fun v hv => ?_
      rw [Decode.await_takeNumber]
      exact Decode.takeRun_wrong hv
  · intro past hpast taken
    refine ⟨fun hlen => ?_, fun skip length hlen => ?_⟩
    · subst hlen
      exact Decode.eat_flip_whole hr hc hn hs hz hpast
    · have hbegun := Decode.eat_spans_begun hr hc hn hs hz hpast hlen
      refine ⟨fun he => ?_, fun v hv he => ?_⟩
      · rw [List.foldl_append, hbegun]
        exact Decode.eat_errs rfl he fun v hv => hv.elim
      · rw [List.foldl_append, List.foldl_append, hbegun, Decode.eat_number rfl hv, Decode.await_takeNumber]
        refine Decode.eat_errs rfl he fun x hx => ?_
        exact Decode.takeSpan_wrong (d := d.await _) hx
  · intro h
    refine ⟨fun line => ?_, rfl, Decode.move_of_transfer, fun hc => ⟨Decode.move_ended, fun y hp => ⟨fun hy => ?_, fun hy => ?_⟩,
      fun hp => ⟨fun hl hread => ?_, fun hl hread => ?_, fun n hl hn => ?_, fun hl h0 => ?_⟩⟩, Decode.advance_none,
      fun d' => Decode.advance_move⟩
    · simp only [Decode.produce, h]
      cases d.work.entry.header.check <;> rfl
    · rw [Decode.move_whiten hc hp, if_pos hy]
    · rw [Decode.move_whiten hc hp, if_neg (Nat.not_lt.mpr hy)]
    · rw [Decode.move_code hc hp, Decode.codeStep_over hl, if_pos hread]
    · rw [Decode.move_code hc hp, Decode.codeStep_over hl, if_neg hread]
      rfl
    · rw [Decode.move_code hc hp, Decode.codeStep_repeat hl hn]
    · rw [Decode.move_code hc hp, Decode.codeStep_byte hl h0]
      refine ⟨fun b rest ha => by rw [ha], fun ha hread => ?_, fun ha hread => ?_⟩
      · rw [ha]
        exact if_pos hread
      · rw [ha]
        exact if_neg (Nat.not_lt.mpr hread)

end Sys2Proof.Machine

/-! The start of a render (O30): the entry and the buffer a renderer is given, what makes an entry eligible, and how a decode
and a screen begin. -/

namespace Sys2Proof.Machine

/-! ### The entry and its buffer -/

theorem eligible_iff (s : State) (e : Entry) : s.eligible e = true ↔
    e.state = .queued ∧ e.linked = true ∧ ∃ p b, s.plate? e.header.plate = some p ∧ p.bands[e.header.band]? = some b
      ∧ (p.state = .loading ∨ p.state = .active) ∧ e.header.seq = b.nextSeq ∧ (b.state = .empty ∨ b.state = .filling)
      ∧ b.rendering = false ∧ (b.buffer ≠ none ∨ e.header.seq = 0 ∧ s.grantable e.header.plate = true) := by
  unfold State.eligible
  cases hp : s.plate? e.header.plate with
  | none => simp
  | some p =>
    cases hb : p.bands[e.header.band]? with
    | none => simp [hb]
    | some b =>
      simp only [hb, Bool.and_eq_true, decide_eq_true_eq, live_iff, Bool.or_eq_true, Bool.not_eq_true',
        Option.isSome_iff_ne_none, Option.some.injEq, exists_and_left, exists_eq_left', and_assoc]

theorem bufferFor_eq {s : State} {b : Band} {n : Nat} {free : List Nat}
    (h : b.buffer = some n ∧ s.pool.free = free ∨ b.buffer = none ∧ s.pool.free = n :: free) :
    s.bufferFor b = some (n, free) := by
  unfold State.bufferFor
  rcases h with ⟨hb, hf⟩ | ⟨hb, hf⟩ <;> rw [hb, hf]

theorem changeFirst_at {α : Type} {which : α → Bool} {a : α} {before after : List α} (f : α → α)
    (hb : ∀ x ∈ before, which x = false) (ha : which a = true) :
    changeFirst which f (before ++ a :: after) = before ++ f a :: after := by
  induction before with
  | nil => simp [changeFirst, ha]
  | cons x r ih =>
    rw [List.cons_append, changeFirst, hb x (by simp), ih fun y hy => hb y (by simp [hy])]
    rfl

theorem find?_at {α : Type} {which : α → Bool} {a : α} {before after : List α} (hb : ∀ x ∈ before, which x = false)
    (ha : which a = true) : (before ++ a :: after).find? which = some a := by
  rw [List.find?_append, List.find?_eq_none.mpr (by simpa using hb), List.find?_cons, ha]
  rfl

theorem startRender_eq {s : State} {e : Entry} {p : Plate} {b : Band} {n : Nat} {free : List Nat}
    (hp : s.plate? e.header.plate = some p) (hb : p.bands[e.header.band]? = some b)
    (hn : s.bufferFor b = some (n, free)) : s.startRender e = s.giveEntry p e n free := by
  simp only [State.startRender, hp, hb, Option.bind_some, hn]

/-! ### A decode and a screen as they begin -/

theorem Screen.move_fill {d : Screen} {line : Nat} (hc : d.transfer.cells = []) (h : d.phase = .fill line) :
    d.move = some (if line < 256 then { d with phase := .fill (line + 1), transfer := d.work.fillTransfer line }
      else d.startLine) := by
  simp [Screen.move, hc, h]

theorem Screen.move_of_transfer {d : Screen} (h : d.transfer.cells ≠ []) : d.move = none := if_neg (by simpa using h)

/-- A white fill goes on: the next buffer line is written. -/
theorem Decode.advance_fill {d : Decode} {line : Nat} (hc : d.transfer.cells = []) (h : d.phase = .fill line)
    (hl : line < 256) : d.advance = { d with phase := .fill (line + 1), transfer := d.work.fillTransfer line } := by
  rw [Decode.advance_move (Decode.move_fill hc h), if_pos hl,
    Decode.advance_none (Decode.move_of_transfer (fillTransfer_cells _ _))]

theorem Screen.advance_fill {d : Screen} {line : Nat} (hc : d.transfer.cells = []) (h : d.phase = .fill line)
    (hl : line < 256) : d.advance = { d with phase := .fill (line + 1), transfer := d.work.fillTransfer line } := by
  rw [Screen.advance_once (Screen.move_fill hc h), if_pos hl]
  rw [if_pos hl]
  exact Screen.move_of_transfer (fillTransfer_cells _ _)

/-- A decode that needs payload bytes waits for plate memory. -/
theorem Decode.move_waiting {d : Decode} (hp : d.phase = .code) (hl : d.lineCount < d.work.entry.header.h)
    (h0 : d.repeatLeft = 0) (ha : d.ahead = []) (hr : d.readPos < d.work.entry.header.declared) : d.move = none := by
  by_cases hc : d.transfer.cells = []
  · rw [Decode.move_code hc hp, Decode.codeStep_byte hl h0, ha]
    exact if_pos hr
  · exact Decode.move_of_transfer hc

/-- A screen without a row in use reads one for its next line. -/
theorem Screen.startLine_row {d : Screen} (hl : d.lineCount < d.work.entry.header.h) (hr : d.row = none) :
    d.startLine = { d with phase := .readRow d.sourceRow [] } := by
  unfold Screen.startLine
  rw [if_neg (Nat.not_le.mpr hl), if_neg (by simp [hr])]

theorem Screen.move_row_begun {d : Screen} {row : Nat} (hp : d.phase = .readRow row [])
    (hsw : 1 ≤ d.work.entry.header.sw) : d.move = none := by
  by_cases hc : d.transfer.cells = []
  · simp [Screen.move, hc, hp]
    omega
  · exact Screen.move_of_transfer hc

/-- The end of a transfer: nothing of it is left. -/
theorem advance_transfer_done {t : Transfer} {n : Nat} (h : t.cells.length ≤ n) : t.advance n = ⟨t.addr + n, []⟩ := by
  rw [Transfer.advance, List.drop_eq_nil_of_le h]

theorem Decode.burstDone_write_all {d : Decode} {cells : List MaskedByte} (bytes : List Byte)
    (h : d.transfer.cells.length ≤ cells.length) : d.burstDone (.write cells) bytes =
      ({ d with transfer := ⟨d.transfer.addr + cells.length, []⟩ } : Decode).advance := by
  rw [← advance_transfer_done h]
  rfl

theorem Screen.burstDone_write_all {d : Screen} {cells : List MaskedByte} (set : Option ScreenParams) (bytes : List Byte)
    (h : d.transfer.cells.length ≤ cells.length) : d.burstDone set (.write cells) bytes =
      ({ d with transfer := ⟨d.transfer.addr + cells.length, []⟩ } : Screen).advance := by
  rw [← advance_transfer_done h]
  rfl

/-- Settles O30. -/
theorem renderStart : Obligations.RenderStart := by
  refine ⟨fun s kind e before after p b n free hr hdec hscr hq hbefore hkind hel hp hb hn => ?_, eligible_iff, fun k => ?_⟩
  · intro k
    have hoffered : s.offered kind e = true := by simp [State.offered, hkind, hel]
    have hnone : ∀ x ∈ before, s.offered kind x = false := fun x hx => by
      have := hbefore x hx
      simpa [State.offered] using this
    have hfree : s.rendererFree kind = true := by
      cases kind with
      | line => simp [State.rendererFree, hdec rfl]
      | tone => simp [State.rendererFree, hscr rfl]
    refine answers_eventWhen (due := s.rendererFree kind) (f := fun s => s.startRender e) ?_ hr hfree ?_
    · simp only [exec, execRenderStart, hq, find?_at hnone hoffered]
    · rw [startRender_eq hp hb (bufferFor_eq hn)]
      simp only [State.giveEntry, State.beginWork, hkind, hq, changeFirst_at _ hnone hoffered]
      cases kind <;> rfl
  · intro h white blank
    refine ⟨fun hseq => ⟨?_, ?_⟩, fun hseq hh hd => ⟨?_, ?_⟩, fun d line cells bytes hk hp hc => ⟨fun hl => ?_, fun hl hlc h0 ha hr => ?_⟩,
      fun d line cells bytes set hk hp hc => ⟨fun hl => ?_, fun hl hlc hrow hsw => ?_⟩⟩
    · rw [Decode.start, Decode.advance_fill (line := 0) rfl (if_pos hseq) (by decide)]
      rfl
    · simp only [Screen.start]
      rw [if_pos hseq, Screen.advance_fill (line := 0) rfl rfl (by decide)]
      rfl
    · have hwait := Decode.move_waiting 
        (d := ⟨k, .code, 0, [], 0, blank, some 0xFFFFFFFF, none, .opening, 0, ⟨0, []⟩⟩) rfl hh rfl rfl hd
      rw [Decode.start, if_neg hseq]
      exact Decode.advance_none hwait
    · have hrow := Screen.startLine_row (d := ⟨k, .fill 0, 0, none, .none⟩) hh rfl
      simp only [Screen.start]
      rw [if_neg hseq, hrow]
      simp [Screen.sourceRow, sourceIndex, h, Transfer.none]
    · subst hk
      exact (Decode.burstDone_write_all bytes hc).trans (Decode.advance_fill (line := line) rfl hp hl)
    · subst hk hl
      have hmove := Decode.move_fill (d := { d with transfer := ⟨d.transfer.addr + cells.length, []⟩ }) rfl hp
      rw [if_neg (by decide)] at hmove
      exact (Decode.burstDone_write_all bytes hc).trans
        ((Decode.advance_move hmove).trans (Decode.advance_none (Decode.move_waiting rfl hlc h0 ha hr)))
    · subst hk
      exact (Screen.burstDone_write_all set bytes hc).trans (Screen.advance_fill (line := line) rfl hp hl)
    · subst hk hl
      have hmove := Screen.move_fill (d := { d with transfer := ⟨d.transfer.addr + cells.length, []⟩ }) rfl hp
      have hrow' := Screen.startLine_row (d := { d with transfer := ⟨d.transfer.addr + cells.length, []⟩ }) hlc hrow
      rw [if_neg (by decide), hrow'] at hmove
      exact (Screen.burstDone_write_all set bytes hc).trans
        (Screen.advance_once hmove (Screen.move_row_begun rfl hsw))

end Sys2Proof.Machine

/-! The end of a render (O31): what it frees and releases, the band it advances or the result it discards, the records it
makes, and its notices. -/

namespace Sys2Proof.Machine

/-! ### The band a render advances -/

theorem target?_iff (s : State) (e : Entry) (p : Plate) (b : Band) : s.target? e = some (p, b) ↔ s.Advances e p b := by
  unfold State.target? State.Advances
  by_cases hl : e.linked = true
  · rw [if_pos hl]
    cases hp : s.plate? e.header.plate with
    | none => simp
    | some q =>
      cases hb : q.bands[e.header.band]? with
      | none =>
        simp only [hb, Option.bind_some, Option.bind_none, Option.some.injEq, reduceCtorEq, false_iff]
        rintro ⟨_, rfl, h, _⟩
        rw [hb] at h
        cases h
      | some c =>
        simp only [hb, Option.bind_some, Option.ite_none_right_eq_some, Bool.and_eq_true, live_iff, Bool.or_eq_true,
          decide_eq_true_eq, Option.some.injEq, Prod.mk.injEq]
        constructor
        · rintro ⟨⟨hlive, hband⟩, rfl, rfl⟩
          exact ⟨hl, rfl, hb, hlive, hband⟩
        · rintro ⟨_, rfl, h, hlive, hband⟩
          rw [hb] at h
          obtain rfl := Option.some.inj h
          exact ⟨⟨hlive, hband⟩, rfl, rfl⟩
  · rw [if_neg hl]
    exact iff_of_false (by simp) fun h => hl h.1

theorem target?_none {s : State} {e : Entry} (h : ∀ p b, ¬s.Advances e p b) : s.target? e = none := by
  cases ht : s.target? e with
  | none => rfl
  | some pb => exact absurd ((target?_iff s e pb.1 pb.2).mp ht) (h pb.1 pb.2)

/-! ### Records -/

/-- A plate record with a damage record made: stored, or counted in the overflow count (R148, R149). -/
def Plate.withRecord (p : Plate) (r : DamageRecord) : Plate :=
  { p with
    damage := if p.damage.length < 64 then p.damage ++ [r] else p.damage
    overflow := if 64 ≤ p.damage.length then min (p.overflow + 1) 65535 else p.overflow }

theorem addRecord_plate? {s : State} {p : Plate} (hp : s.plate? p.id = some p) (r : DamageRecord) :
    (s.addRecord p.id r).plate? p.id = some (p.withRecord r) := by
  unfold State.addRecord
  rw [recordIndex_eq hp]
  by_cases h : p.damage.length < 64
  · rw [if_pos h]
    refine (plate?_of_table (by simp) _).trans ((plate?_modPlate_self
      (f := fun p => { p with damage := p.damage ++ [r] }) (fun _ => rfl) hp).trans ?_)
    simp [Plate.withRecord, h]
  · rw [if_neg h]
    refine (plate?_modPlate_self (f := fun p => { p with overflow := satAdd p.overflow 1 }) (fun _ => rfl) hp).trans ?_
    simp [Plate.withRecord, h, satAdd]

theorem addRecord_link {s : State} {p : Plate} (hp : s.plate? p.id = some p) (r : DamageRecord) :
    (s.addRecord p.id r).link = if p.damage.length < 64 then s.link.post (.damage p.id p.damage.length r) else s.link := by
  unfold State.addRecord
  rw [recordIndex_eq hp]
  split_ifs <;> rfl

/-- The plate and the band that a content check mismatch leaves (R76). -/
theorem contentRecord_advances {s : State} {k : Work} {p : Plate} {b : Band} (h : s.Advances k.entry p b) :
    let h := k.entry.header
    let content : DamageRecord := ⟨.content, p.completed + 1, h.band, 256 * h.band + h.y0,
      256 * h.band + min (h.y0 + h.h - 1) (p.bandHeight h.band - 1), none, none, some h.seq, none, none⟩
    let marked := p.modBand h.band fun b => { b with damaged := true }
    (s.contentRecord k).plate? p.id = some (marked.withRecord content)
      ∧ (s.contentRecord k).link
        = (if p.damage.length < 64 then s.link.post (.damage p.id p.damage.length content) else s.link)
      ∧ (s.contentRecord k).Advances k.entry (marked.withRecord content) { b with damaged := true } := by
  intro hd content marked
  have hp := h.2.1
  have hid := (plate?_some hp).1
  have hmade : s.contentRecord k = (s.modBand p.id hd.band fun b => { b with damaged := true }).addRecord p.id content := by
    simp only [State.contentRecord, (target?_iff s k.entry p b).mpr h]
    rfl
  have hmarked : (s.modBand p.id hd.band fun b => { b with damaged := true }).plate? marked.id = some marked :=
    plate?_modPlate_self (f := fun p => p.modBand hd.band fun b => { b with damaged := true }) (fun _ => rfl)
      (hid ▸ hp)
  have hplate : (s.contentRecord k).plate? p.id = some (marked.withRecord content) := by
    rw [hmade]
    exact addRecord_plate? hmarked content
  refine ⟨hplate, ?_, h.1, hid ▸ hplate, ?_, h.2.2.2.1, h.2.2.2.2⟩
  · rw [hmade]
    exact addRecord_link hmarked content
  · show (p.bands.modify hd.band _)[hd.band]? = _
    rw [List.getElem?_modify, h.2.2.1]
    simp

/-! ### The end of a render, but for the lead -/

/-- The state at the end of a render before the lead it may settle is looked at. -/
def State.renderEnded (s : State) (kind : SegKind) (k : Work) : State :=
  match s.target? k.entry with
  | some (p, _) => if k.clipped then (s.endRenderCore kind k).countClipped p.id else s.endRenderCore kind k
  | none => s.endRenderCore kind k

theorem endRender_eq (s : State) (kind : SegKind) (k : Work) : s.endRender kind k = (s.renderEnded kind k).settleLead := by
  unfold State.endRender State.renderEnded
  cases s.target? k.entry <;> rfl

theorem clipped_iff (k : Work) : k.clipped = true ↔
    k.width < k.entry.header.x0 + k.entry.header.w ∨ k.bandHeight < k.entry.header.y0 + k.entry.header.h := by
  simp [Work.clipped]

/-- Counting a clipped segment touches the plate table alone. -/
theorem renderEnded_eq (s : State) (kind : SegKind) (k : Work) :
    s.renderEnded kind k = s.endRenderCore kind k ∨ ∃ id, s.renderEnded kind k = (s.endRenderCore kind k).countClipped id := by
  unfold State.renderEnded
  split
  · split
    · exact .inr ⟨_, rfl⟩
    · exact .inl rfl
  · exact .inl rfl

/-- The parts a render's end leaves, and those it changes whatever becomes of its result. -/
theorem endRenderCore_parts (s : State) (kind : SegKind) (k : Work) :
    (s.endRenderCore kind k).decoder = (if kind = .line then none else s.decoder)
    ∧ (s.endRenderCore kind k).screener = (if kind = .tone then none else s.screener)
    ∧ (s.endRenderCore kind k).segs = ⟨released (s.segs.queue.map fun e =>
        if e.state = .rendering ∧ e.header.kind = kind then { e with state := .rendered } else e), s.segs.writePos⟩
    ∧ (s.endRenderCore kind k).screens = returnUse k.entry.header s.screens
    ∧ (s.endRenderCore kind k).table.queue = s.table.queue
    ∧ (s.endRenderCore kind k).feed.intake = s.feed.intake ∧ (s.endRenderCore kind k).feed.buffer = s.feed.buffer
    ∧ (s.endRenderCore kind k).feed.counters = s.feed.counters := by
  have hqueue : moveEntries (fun e => decide (e.header.kind = kind)) .rendering .rendered s.segs.queue =
      s.segs.queue.map fun e => if e.state = .rendering ∧ e.header.kind = kind then { e with state := .rendered } else e := by
    simp [moveEntries]
  have htable {t : State} (ht : t.table = s.table) (p : Plate) (b : Band) :
      (t.advanceBand p b k.entry.header).table.queue = s.table.queue := by
    unfold State.advanceBand
    split_ifs <;> simp [State.modBand, State.modPlate, ht]
  have hdiscard {t : State} (ht : t.table = s.table) : (t.discardResult k).table.queue = s.table.queue := by
    unfold State.discardResult
    split_ifs <;> simp [State.returnBuffers, State.modBand, State.modPlate, ht]
  unfold State.endRenderCore
  rw [hqueue]
  dsimp only
  split
  all_goals
    refine ⟨?_, ?_, ?_, by simp, ?_, by simp, by simp, by simp⟩
    · cases kind <;> simp [State.freeRenderer]
    · cases kind <;> simp [State.freeRenderer]
    · rw [releaseRing_segs]
      simp
  · simpa using htable (by simp) _ _
  · simpa using hdiscard (by simp)

/-! ### A result that advances its band -/

/-- BAND READY and PLATE READY, where the band is now READY and the plate complete (R9, R10). -/
def Link.tellReady (l : Link) (p : Plate) (band : Nat) : Link :=
  if ∀ x ∈ p.bands, x.state = .blank ∨ x.nextSeq = x.expected then (l.post (.bandReady p.id band)).post (.plateReady p.id)
  else l.post (.bandReady p.id band)

theorem complete_iff (p : Plate) : p.complete = true ↔ ∀ x ∈ p.bands, x.state = .blank ∨ x.nextSeq = x.expected := by
  simp [Plate.complete]

theorem tellReady_link {s : State} {p : Plate} (hp : s.plate? p.id = some p) (band : Nat) :
    (s.tellReady p.id band).link = s.link.tellReady p band := by
  have hposted : (s.post (.bandReady p.id band)).plate? p.id = some p := hp
  unfold State.tellReady Link.tellReady
  dsimp only
  rw [hposted]
  simp only [Option.map_some, Option.getD_some, complete_iff]
  split_ifs <;> rfl

/-- A plate record with band `i` replaced. -/
def Plate.withBand (p : Plate) (i : Nat) (b : Band) : Plate := { p with bands := p.bands.modify i fun _ => b }

theorem advanceBand_does {s : State} {e : Entry} {p : Plate} {b : Band} (h : s.Advances e p b) :
    (s.advanceBand p b e.header).plate? p.id = some (p.withBand e.header.band b.advanced)
    ∧ (s.advanceBand p b e.header).link = if b.advanced.state = .ready then
        s.link.tellReady (p.withBand e.header.band b.advanced) e.header.band else s.link := by
  obtain ⟨_, hp, hb, _, _⟩ := h
  have hid := (plate?_some hp).1
  have hband : p.modBand e.header.band Band.advanced = p.withBand e.header.band b.advanced := by
    simp only [Plate.modBand, Plate.withBand, modify_eq_set _ hb]
  have hplate : (s.modBand p.id e.header.band Band.advanced).plate? p.id = some (p.withBand e.header.band b.advanced) :=
    (plate?_modPlate_self (f := fun p => p.modBand e.header.band Band.advanced) (fun _ => rfl) (hid ▸ hp)).trans
      (congrArg some hband)
  have hlink := tellReady_link (p := p.withBand e.header.band b.advanced) hplate e.header.band
  unfold State.advanceBand
  split_ifs
  · exact ⟨(plate?_of_table (by simp) _).trans hplate, hlink⟩
  · exact ⟨hplate, rfl⟩

theorem renderEnded_advances {s : State} {k : Work} {p : Plate} {b : Band} (kind : SegKind)
    (h : s.Advances k.entry p b) :
    let next := p.withBand k.entry.header.band b.advanced
    (s.renderEnded kind k).plate? p.id = some { next with
      clipped := if k.width < k.entry.header.x0 + k.entry.header.w ∨ k.bandHeight < k.entry.header.y0 + k.entry.header.h
        then min (p.clipped + 1) 65535 else p.clipped }
    ∧ (s.renderEnded kind k).pool = s.pool
    ∧ (s.renderEnded kind k).link =
      if b.advanced.state = .ready then s.link.tellReady next k.entry.header.band else s.link := by
  intro next
  have htarget : s.target? k.entry = some (p, b) := (target?_iff s k.entry p b).mpr h
  have hbegun : ((s.freeRenderer kind).withSegs { s.segs with
      queue := moveEntries (fun e => decide (e.header.kind = kind)) .rendering .rendered s.segs.queue }).Advances k.entry p b :=
    ⟨h.1, (plate?_of_table (by simp) _).trans h.2.1, h.2.2⟩
  obtain ⟨hplate, hlink⟩ := advanceBand_does hbegun
  have hcore : s.endRenderCore kind k = ((((s.freeRenderer kind).withSegs { s.segs with
      queue := moveEntries (fun e => decide (e.header.kind = kind)) .rendering .rendered s.segs.queue }).advanceBand p b
        k.entry.header).withScreens (returnUse k.entry.header s.screens)).releaseRing := by
    unfold State.endRenderCore
    simp only [freeRenderer_frame, (target?_iff _ k.entry p b).mpr hbegun, withSegs_screens, advanceBand_frame]
  have hcorePlate : (s.endRenderCore kind k).plate? p.id = some next := by
    rw [hcore]
    exact (plate?_of_table (by simp) _).trans hplate
  have hcoreLink : (s.endRenderCore kind k).link =
      if b.advanced.state = .ready then s.link.tellReady next k.entry.header.band else s.link := by
    rw [hcore]
    simpa using hlink
  have hcorePool : (s.endRenderCore kind k).pool = s.pool := by
    rw [hcore]
    simp
  unfold State.renderEnded
  simp only [htarget]
  by_cases hc : k.clipped = true
  · rw [if_pos hc, if_pos ((clipped_iff k).mp hc)]
    refine ⟨?_, by simpa using hcorePool, by simpa using hcoreLink⟩
    exact plate?_modPlate_self (p := next) (f := fun p => { p with clipped := satAdd p.clipped 1 }) (fun _ => rfl) hcorePlate
  · rw [if_neg hc, if_neg (mt (clipped_iff k).mpr hc)]
    exact ⟨hcorePlate, hcorePool, hcoreLink⟩

/-! ### A result discarded -/

theorem renderEnded_discards {s : State} {k : Work} (kind : SegKind) (h : ∀ p b, ¬s.Advances k.entry p b) :
    (s.renderEnded kind k).pool.free = s.pool.free ++ [k.buffer] ∧ (s.renderEnded kind k).link = s.link
      ∧ (s.renderEnded kind k).table = { s.table with plates := s.table.plates.map fun x =>
        if k.entry.linked = true ∧ x.id = k.entry.header.plate then
          { x with bands := x.bands.modify k.entry.header.band fun b => { b with rendering := false, buffer := none } }
        else x } := by
  have hnone := target?_none h
  have hbegun : ((s.freeRenderer kind).withSegs { s.segs with
      queue := moveEntries (fun e => decide (e.header.kind = kind)) .rendering .rendered s.segs.queue }).target? k.entry
      = none :=
    target?_none fun p b hadv => h p b ⟨hadv.1, (plate?_of_table (by simp) _).symm.trans hadv.2.1, hadv.2.2⟩
  have hended : s.renderEnded kind k = s.endRenderCore kind k := by
    unfold State.renderEnded
    simp only [hnone]
  rw [hended]
  unfold State.endRenderCore
  simp only [hbegun]
  refine ⟨?_, by simp, ?_⟩
  · simp [State.discardResult, State.returnBuffers]
    split_ifs <;> simp [State.modBand, State.modPlate]
  · by_cases hl : k.entry.linked = true
    · simp [State.discardResult, State.returnBuffers, hl, State.modBand, State.modPlate, Plate.modBand]
    · simp [State.discardResult, State.returnBuffers, hl]

/-! ### The whole end -/

/-- The state whose render ends, after the record a content check mismatch makes (R76). -/
def State.checked (s : State) (k : Work) (mismatch : Bool) : State := if mismatch then s.contentRecord k else s

theorem contentRecord_queue (s : State) (k : Work) : (s.contentRecord k).table.queue = s.table.queue := by
  unfold State.contentRecord
  dsimp only
  split
  · unfold State.renderDamage State.addRecord
    split <;> simp [State.modBand, State.modPlate]
  · rfl

theorem contentRecord_none {s : State} {k : Work} (h : ∀ p b, ¬s.Advances k.entry p b) : s.contentRecord k = s := by
  simp only [State.contentRecord, target?_none h]

/-- The parts that no render's end changes, and those it changes whatever becomes of its result. -/
theorem renderEnded_parts (s : State) (kind : SegKind) (k : Work) (mismatch : Bool) :
    let u := (s.checked k mismatch).renderEnded kind k
    u.decoder = (if kind = .line then none else s.decoder)
    ∧ u.screener = (if kind = .tone then none else s.screener)
    ∧ u.segs = ⟨released (s.segs.queue.map fun e =>
        if e.state = .rendering ∧ e.header.kind = kind then { e with state := .rendered } else e), s.segs.writePos⟩
    ∧ u.screens = returnUse k.entry.header s.screens
    ∧ u.table.queue = s.table.queue ∧ u.engine = s.engine ∧ u.marks = s.marks ∧ u.stamps = s.stamps
    ∧ u.memory = s.memory ∧ u.monitor = s.monitor ∧ u.pins = s.pins
    ∧ u.feed.intake = s.feed.intake ∧ u.feed.buffer = s.feed.buffer ∧ u.feed.counters = s.feed.counters := by
  intro u
  have hparts := endRenderCore_parts (s.checked k mismatch) kind k
  have hchecked : (s.checked k mismatch).table.queue = s.table.queue := by
    unfold State.checked
    split_ifs
    · exact contentRecord_queue s k
    · rfl
  have hcount (t : State) (id : Nat) : (t.countClipped id).table.queue = t.table.queue := by
    simp [State.countClipped, State.modPlate]
  have hsame : (s.checked k mismatch).decoder = s.decoder ∧ (s.checked k mismatch).screener = s.screener
      ∧ (s.checked k mismatch).segs = s.segs ∧ (s.checked k mismatch).screens = s.screens
      ∧ (s.checked k mismatch).feed = s.feed ∧ (s.checked k mismatch).engine = s.engine
      ∧ (s.checked k mismatch).marks = s.marks ∧ (s.checked k mismatch).stamps = s.stamps
      ∧ (s.checked k mismatch).memory = s.memory ∧ (s.checked k mismatch).monitor = s.monitor
      ∧ (s.checked k mismatch).pins = s.pins := by
    unfold State.checked
    split_ifs <;> simp
  obtain ⟨hdec, hscr, hsegs, hscreens, hfeed, hengine, hmarks, hstamps, hmemory, hmonitor, hpins⟩ := hsame
  rw [hdec, hscr, hsegs, hscreens, hfeed, hchecked] at hparts
  obtain ⟨h1, h2, h3, h4, h5, h6, h7, h8⟩ := hparts
  rcases renderEnded_eq (s.checked k mismatch) kind k with hu | ⟨id, hu⟩
  · simp only [u, hu, endRenderCore_frame]
    exact ⟨h1, h2, h3, h4, h5, hengine, hmarks, hstamps, hmemory, hmonitor, hpins, h6, h7, h8⟩
  · simp only [u, hu, endRenderCore_frame, countClipped_frame, hcount]
    exact ⟨h1, h2, h3, h4, h5, hengine, hmarks, hstamps, hmemory, hmonitor, hpins, h6, h7, h8⟩

/-- A result that advances its band, with or without a content check mismatch. -/
theorem checked_advances {s : State} {k : Work} {p : Plate} {b : Band} (kind : SegKind) (mismatch : Bool)
    (h : s.Advances k.entry p b) :
    let hd := k.entry.header
    let after : Band := { b with
      nextSeq := b.nextSeq + 1, rendering := false, damaged := b.damaged || mismatch
      state := if b.nextSeq + 1 = b.expected then .ready else .filling }
    let bands := p.bands.modify hd.band fun _ => after
    let content : DamageRecord := ⟨.content, p.completed + 1, hd.band, 256 * hd.band + hd.y0,
      256 * hd.band + min (hd.y0 + hd.h - 1) (p.bandHeight hd.band - 1), none, none, some hd.seq, none, none⟩
    let stored := mismatch = true ∧ p.damage.length < 64
    let s1 := if stored then s.post (.damage p.id p.damage.length content) else s
    let s2 := if after.state = .ready then s1.post (.bandReady p.id hd.band) else s1
    let s3 := if after.state = .ready ∧ ∀ x ∈ bands, x.state = .blank ∨ x.nextSeq = x.expected then
        s2.post (.plateReady p.id) else s2
    let u := (s.checked k mismatch).renderEnded kind k
    u.pool = s.pool ∧ u.link = s3.link
      ∧ u.plate? p.id = some { p with
          bands := bands
          damage := if stored then p.damage ++ [content] else p.damage
          overflow := if mismatch = true ∧ 64 ≤ p.damage.length then min (p.overflow + 1) 65535 else p.overflow
          clipped := if k.width < hd.x0 + hd.w ∨ k.bandHeight < hd.y0 + hd.h then min (p.clipped + 1) 65535
            else p.clipped } := by
  intro hd after bands content stored s1 s2 s3 u
  have hlinks {l : Link} {q : Plate} (hq : q.id = p.id) (hl : l = s1.link) (hb : q.bands = bands) :
      (if after.state = .ready then l.tellReady q hd.band else l) = s3.link := by
    subst hl
    simp only [s3, s2, Link.tellReady, hq, hb]
    by_cases h1 : after.state = .ready
    · by_cases h2 : ∀ x ∈ bands, x.state = .blank ∨ x.nextSeq = x.expected
      · rw [if_pos h1, if_pos h2, if_pos ⟨h1, h2⟩, if_pos h1]
        rfl
      · rw [if_pos h1, if_neg h2, if_neg (fun h => h2 h.2), if_pos h1]
        rfl
    · rw [if_neg h1, if_neg (fun h => h1 h.1), if_neg h1]
  cases mismatch with
  | false =>
    have hafter : b.advanced = after := by simp [after, Band.advanced]
    obtain ⟨hplate, hpool, hlink⟩ := renderEnded_advances kind h
    refine ⟨hpool, ?_, ?_⟩
    · refine hlink.trans ?_
      rw [hafter]
      exact hlinks rfl (by simp [s1, stored]) rfl
    · refine hplate.trans ?_
      simp [Plate.withBand, bands, hafter, stored, hd]
  | true =>
    obtain ⟨_, hmade, hadv⟩ := contentRecord_advances h
    have hafter : ({ b with damaged := true } : Band).advanced = after := by simp [after, Band.advanced]
    have hmodify : (p.bands.modify hd.band fun b => { b with damaged := true }).modify hd.band (fun _ => after) = bands := by
      rw [modify_eq_set (l := p.bands) _ h.2.2.1, modify_eq_set (l := List.set _ _ _) (x := { b with damaged := true }),
        List.set_set]
      · exact (modify_eq_set (fun _ => after) h.2.2.1).symm
      · rw [List.getElem?_set_self (List.getElem?_eq_some_iff.mp h.2.2.1).1]
    obtain ⟨hplate, hpool, hlink⟩ := renderEnded_advances kind hadv
    refine ⟨hpool.trans (by simp), ?_, ?_⟩
    · refine hlink.trans ?_
      rw [hafter]
      refine hlinks rfl ?_ hmodify
      rw [hmade]
      simp only [s1, stored, true_and]
      split_ifs <;> rfl
    · refine hplate.trans ?_
      rw [hafter, ← hmodify]
      simp only [Plate.withBand, Plate.withRecord, Plate.modBand, stored, true_and]
      rfl

/-- Settles O31. -/
theorem renderEnd : Obligations.RenderEnd := by
  refine ⟨fun s c kind k mismatch hr hc => ?_, fun s d d' => ⟨fun h => ?_, fun e hd he => ?_⟩⟩
  · intro h
    refine ⟨(s.checked k mismatch).renderEnded kind k, ?_, ?_⟩
    · rcases hc with ⟨rfl, rfl, d, hd, hp, ht, rfl, rfl⟩ | ⟨rfl, rfl, rfl, d, hd, hp, ht, rfl⟩
      · refine answers_eventWhen (due := d.over) (f := endDecode d) ?_ hr (by simp [Decode.over, hp, ht]) ?_
        · simp only [exec, execLineDecodeEnd, hd]
        · exact endRender_eq _ _ _
      · refine answers_eventWhen (due := d.over) (f := fun s => s.endRender .tone d.work) ?_ hr (by simp [Screen.over, hp, ht]) ?_
        · simp only [exec, execScreenRenderEnd, hd]
        · exact endRender_eq _ _ _
    · obtain ⟨h1, h2, h3, h4, hrest⟩ := renderEnded_parts s kind k mismatch
      refine ⟨h1, h2, h3, h4, fun p b hadv => checked_advances kind mismatch hadv, fun hno => ?_, hrest⟩
      have hsame : s.checked k mismatch = s := by
        unfold State.checked
        split_ifs
        · exact contentRecord_none hno
        · rfl
      rw [hsame]
      exact renderEnded_discards kind hno
  · unfold State.stepDecoder
    rcases h with h | h
    · cases hd : d.error with
      | none => exact absurd hd h
      | some x => rfl
    · rw [h]
      cases d.error <;> rfl
  · intro h
    have hstep : s.stepDecoder d d' = (s.withDecoder (some d')).codeRecord d'.work e := by
      simp only [State.stepDecoder, hd, he]
    refine ⟨fun hno => ?_, fun p b hadv => ?_⟩
    · rw [hstep, State.codeRecord]
      simp only [target?_none (s := s.withDecoder (some d')) hno]
    · intro last
      rw [hstep, State.codeRecord]
      simp only [(target?_iff (s.withDecoder (some d')) d'.work.entry p b).mpr hadv]
      rfl

end Sys2Proof.Machine

/-! PLATE EXPOSE, the taking of the head plate and the lead (O40), and EXPOSE SETUP (O41). -/

namespace Sys2Proof.Machine

/-! ### Records by their index -/

theorem indexed_at {α : Type} (before after : List α) (a : α) : indexed (before ++ a :: after) =
    indexed before ++ (before.length, a) :: after.mapIdx fun i x => (i + (before.length + 1), x) := by
  simp [indexed, List.mapIdx_append, Nat.add_comm, Nat.add_left_comm]

/-- Where an indexed list's filter by its elements is empty. -/
theorem filter_mapIdx_nil {α : Type} {l : List α} {which : α → Bool} (f : Nat → Nat) (h : ∀ a ∈ l, which a = false) :
    (l.mapIdx fun i x => (f i, x)).filter (fun r => which r.2) = [] := by
  refine List.filter_eq_nil_iff.mpr fun r hr => ?_
  obtain ⟨i, hi, rfl⟩ := List.mem_mapIdx.mp hr
  simp [h _ (List.getElem_mem hi)]

/-- The last element of an indexed list that satisfies `which`. -/
theorem last_indexed {α : Type} {before after : List α} {a : α} {which : α → Bool} (ha : which a = true)
    (hafter : ∀ x ∈ after, which x = false) :
    ((indexed (before ++ a :: after)).filter fun r => which r.2).getLast? = some (before.length, a) := by
  rw [indexed_at, List.filter_append, List.filter_cons, if_pos ha, filter_mapIdx_nil _ hafter]
  simp

theorem last_indexed_none {α : Type} {l : List α} {which : α → Bool} (h : ∀ x ∈ l, which x = false) :
    ((indexed l).filter fun r => which r.2).getLast? = none := by
  rw [indexed, filter_mapIdx_nil (fun i => i) h]
  rfl

theorem drumRecord_newest {p : Plate} {before after : List DamageRecord} {r : DamageRecord} (copy : Nat)
    (hp : p.damage = before ++ r :: after) (hr : r.cause = .drum) (hafter : ∀ x ∈ after, x.cause ≠ .drum) :
    p.drumRecord copy = if r.copy = copy then some (before.length, r.first) else none := by
  have hlast := last_indexed (before := before) (after := after) (a := r) (which := fun x => decide (x.cause = .drum))
    (by simpa using hr) (by simpa using hafter)
  simp only [Plate.drumRecord, hp, hlast]

theorem drumRecord_none {p : Plate} (copy : Nat) (h : ∀ r ∈ p.damage, r.cause ≠ .drum) : p.drumRecord copy = none := by
  have hlast := last_indexed_none (l := p.damage) (which := fun x => decide (x.cause = .drum)) (by simpa using h)
  simp only [Plate.drumRecord, hlast]

/-! ### The lead -/

theorem leadSettled_iff (p : Plate) : p.leadSettled = true ↔
    ∀ b ∈ p.bands.take p.lead, b.state = .ready ∨ b.state = .blank ∨ b.state = .starved := by
  simp [Plate.leadSettled, Band.settled, or_assoc]

/-- The engine whose fetch starts: it is urgent at once where its FIFO is at or below the demand. -/
theorem startFetch_eq (e : Engine) : ({ e with state := .waitDrum } : Engine).startFetch =
    ({ e with state := .waitDrum, fetchPos := 0, running := true } : Engine).testUrgency := rfl

theorem settleLead_taken_plate {s : State} {t : Taken} {p : Plate} (ht : s.engine.taken = some t)
    (hp : s.plate? t.plate = some p) :
    s.settleLead = if s.engine.state = .waitLead ∧ p.leadSettled then s.leaveLead t p else s := by
  simp only [State.settleLead, takenPlate?_eq ht hp]

theorem settleLead_still {s : State} (h : s.engine.state ≠ .waitLead ∨ ∀ t p, s.engine.taken = some t →
    s.plate? t.plate = some p → p.leadSettled = false) : s.settleLead = s := by
  unfold State.settleLead
  split
  next t p htp =>
    obtain ⟨ht, hp⟩ := taken_of_takenPlate? htp
    refine if_neg fun hc => ?_
    rcases h with h | h
    · exact h hc.1
    · rw [h t p ht hp] at hc
      exact absurd hc.2 (by decide)
  next => rfl

theorem leaveLead_eq (s : State) (t : Taken) (p : Plate) : s.leaveLead t p =
    (match p.drumRecord t.copy with
      | some (i, first) => s.requestMark .drum (first / 4 * 4) (some i)
      | none => s).withEngine
        ({ s.engine with state := .waitDrum, fetchPos := 0, running := true } : Engine).testUrgency := by
  unfold State.leaveLead
  cases p.drumRecord t.copy with
  | none => rfl
  | some x => simp only [requestMark_frame, startFetch_eq]

theorem leaveLead_engine (s : State) (t : Taken) (p : Plate) : (s.leaveLead t p).engine =
    ({ s.engine with state := .waitDrum, fetchPos := 0, running := true } : Engine).testUrgency := by
  rw [leaveLead_eq]
  rfl

/-! ### The head plate taken -/

/-- The state as the head plate `p` is taken, before the scan that runs is abandoned. -/
def State.headTaken (s : State) (p : Plate) : State :=
  (s.modPlate p.id fun x => { x with state := .active }).withEngine (s.engine.take ⟨p.id, p.completed + 1⟩)

theorem takeHead_still {s : State} (h : s.engine.state ≠ .idle ∨ ∀ p, s.table.queue.head?.bind s.plate? = some p →
    p.state ≠ .loading ∨ p.authorised = false) : s.takeHead = s := by
  unfold State.takeHead
  split
  next p hp =>
    refine if_neg fun hc => ?_
    rcases h with h | h
    · exact h hc.1
    · rcases h p hp with h | h
      · exact h hc.2.1
      · rw [h] at hc
        exact absurd hc.2.2 (by decide)
  next => rfl

theorem takeHead_eq {s : State} {p : Plate} (hi : s.engine.state = .idle) (hp : s.table.queue.head?.bind s.plate? = some p)
    (hl : p.state = .loading) (ha : p.authorised = true) : s.takeHead = (s.headTaken p).abandonScan.settleLead := by
  unfold State.takeHead
  simp only [hp, hi, hl, ha]
  exact if_pos (by simp)

theorem headTaken_plate? {s : State} {p : Plate} (hp : s.plate? p.id = some p) :
    (s.headTaken p).plate? p.id = some { p with state := .active } :=
  plate?_modPlate_self (f := fun x => { x with state := .active }) (fun _ => rfl) hp

theorem abandonScan_table (s : State) : s.abandonScan.table = s.table ∧ s.abandonScan.engine = s.engine := by
  unfold State.abandonScan
  split_ifs <;> simp

theorem abandonScan_scanning {s : State} (h : s.monitor.activity = .scanSingle ∨ s.monitor.activity = .scanContinuous) :
    s.abandonScan = (s.withMonitor { s.monitor with activity := .idle, step := .none }).post
      (.measureAbandoned true (match s.monitor.step with | .beam k => some k | .none | .ref => none)) := by
  have hscan : s.monitor.activity.scanning = true := by rcases h with h | h <;> rw [h] <;> rfl
  have hbeam : s.monitor.step.beam? = match s.monitor.step with | .beam k => some k | .none | .ref => none := by
    cases s.monitor.step <;> rfl
  rw [State.abandonScan, if_pos hscan, hbeam]
  rfl

theorem abandonScan_still {s : State} (h : s.monitor.activity = .idle ∨ s.monitor.activity = .exposure) :
    s.abandonScan = s := by
  refine if_neg ?_
  rcases h with h | h <;> rw [h] <;> decide

/-- The engine once the head plate is taken and its lead looked at. -/
theorem takeHead_engine {s : State} {p : Plate} (hi : s.engine.state = .idle)
    (hp : s.table.queue.head?.bind s.plate? = some p) (hl : p.state = .loading) (ha : p.authorised = true) :
    s.takeHead.engine = if p.leadSettled
      then ({ s.engine.take ⟨p.id, p.completed + 1⟩ with
        state := .waitDrum, fetchPos := 0, running := true } : Engine).testUrgency
      else s.engine.take ⟨p.id, p.completed + 1⟩ := by
  have hplate : s.plate? p.id = some p := by
    obtain ⟨id, _, hid⟩ := Option.bind_eq_some_iff.mp hp
    rwa [← (plate?_some hid).1] at hid
  have htaken : (s.headTaken p).abandonScan.engine = s.engine.take ⟨p.id, p.completed + 1⟩ := (abandonScan_table _).2
  have hfound : (s.headTaken p).abandonScan.plate? p.id = some { p with state := .active } :=
    (plate?_of_table (abandonScan_table _).1 _).trans (headTaken_plate? hplate)
  rw [takeHead_eq hi hp hl ha, settleLead_taken_plate (t := ⟨p.id, p.completed + 1⟩) (by rw [htaken]; rfl) hfound]
  by_cases hs : p.leadSettled = true
  · rw [if_pos ⟨by rw [htaken]; rfl, hs⟩, if_pos hs, leaveLead_engine, htaken]
  · rw [if_neg (fun h => hs h.2), if_neg hs, htaken]

/-! ### PLATE EXPOSE -/

theorem plateExpose_refused {s : State} {m : Message} {rest : List Message} (hm : s.Heads m rest) (hk : m.kind = 0x09) :
    (m.body.length ≠ 2 → Answers .plateExpose s (s.replied m.tag rest .badArg []))
    ∧ (m.body.length = 2 → s.plate? (field m.body 0 2) = none →
      Answers .plateExpose s (s.replied m.tag rest .notFound [])) :=
  ⟨fun hl => hm.answers (f := Machine.plateExpose) rfl hk (by simp only [Machine.plateExpose, plateIdBody_none hl]),
    fun hl hn => hm.answers (f := Machine.plateExpose) rfl hk
      (by simp only [Machine.plateExpose, plateIdBody_of_length hl, hn])⟩

/-- Settles O40. -/
theorem Settled.plateExpose : Obligations.PlateExpose := by
  refine ⟨fun s m rest hm hk => ?_, fun s => ⟨fun h => takeHead_still h, fun p hi hp hl ha => ?_⟩, fun s =>
    ⟨fun h => settleLead_still ?_, fun t p hw ht hp hlead => ?_⟩⟩
  · obtain ⟨hlength, hmissing⟩ := plateExpose_refused hm hk
    refine ⟨hlength, fun hl => ⟨hmissing hl, fun p hp => ⟨fun hs => ?_, fun hs => ?_⟩⟩⟩
    · refine hm.answers (f := Machine.plateExpose) rfl hk ?_
      simp only [Machine.plateExpose, plateIdBody_of_length hl, hp]
      exact if_neg hs
    · refine hm.does (f := Machine.plateExpose) rfl hk ?_
      simp only [Machine.plateExpose, plateIdBody_of_length hl, hp]
      rw [if_pos hs, ← (plate?_some hp).1]
      exact hm.answerOver (by simp) (by simp) (by simp) (by simp) .ok []
  · have hengine := takeHead_engine hi hp hl ha
    have heq := takeHead_eq hi hp hl ha
    have htable : s.takeHead.table = (s.headTaken p).table := by
      rw [heq, (settleLead_frame _).2.2.2.2.2.1, (abandonScan_table _).1]
    rw [hengine, htable]
    refine ⟨?_, ?_, ?_, ?_, ?_, ?_, ?_, ?_, ?_, ?_, ?_, rfl, by simp, by simp, by simp, ?_⟩
    iterate 11 cases p.leadSettled <;> rfl
    intro taken beam abandoned
    have hmonitor : (s.headTaken p).monitor = s.monitor := rfl
    refine ⟨fun h => ?_, fun h => ?_⟩
    · have habandoned : (s.headTaken p).abandonScan = abandoned := abandonScan_scanning h
      rw [heq, habandoned]
      exact ⟨rfl, by simp [abandoned], by simp [abandoned]; rfl⟩
    · have hstill : (s.headTaken p).abandonScan = taken := abandonScan_still h
      rw [heq, hstill]
      exact ⟨rfl, by simp [taken], by simp [taken]⟩
  · refine h.imp_right fun h t p ht hp => ?_
    rw [Bool.eq_false_iff, Ne, leadSettled_iff]
    intro hall
    obtain ⟨b, hb, h1, h2, h3⟩ := h t p ht hp
    rcases hall b hb with h | h | h
    · exact h1 h
    · exact h2 h
    · exact h3 h
  · intro started
    have hsettled : s.settleLead = s.leaveLead t p :=
      (settleLead_taken_plate ht hp).trans (if_pos ⟨hw, (leadSettled_iff p).mpr hlead⟩)
    refine ⟨fun before r after hd hr hafter => ?_, fun hno => ?_⟩
    · rw [hsettled, leaveLead_eq, drumRecord_newest t.copy hd hr hafter]
      by_cases hc : r.copy = t.copy
      · rw [if_pos hc, if_pos hc, Nat.mul_comm 4]
      · rw [if_neg hc, if_neg hc]
    · rw [hsettled, leaveLead_eq, drumRecord_none t.copy hno]

/-! ### EXPOSE SETUP -/

theorem any_pattern_iff (f : Nat → Nat) : (((List.range 8).map fun i => if f i = 255 then none else some (f i)).any fun x =>
    decide (31 < x.getD 0)) = true ↔ ∃ i < 8, 31 < f i ∧ f i ≠ 255 := by
  simp only [List.any_map, List.any_eq_true, List.mem_range, Function.comp_apply, decide_eq_true_eq]
  refine exists_congr fun i => and_congr_right fun _ => ?_
  by_cases h : f i = 255 <;> simp [h]

theorem exists_lt_four {P : Nat → Prop} : (∃ k < 4, P k) ↔ P 0 ∨ P 1 ∨ P 2 ∨ P 3 := by
  constructor
  · rintro ⟨k, hk, hP⟩
    match k, hk with
    | 0, _ => exact .inl hP
    | 1, _ => exact .inr (.inl hP)
    | 2, _ => exact .inr (.inr (.inl hP))
    | 3, _ => exact .inr (.inr (.inr hP))
  · rintro (h | h | h | h)
    · exact ⟨0, by decide, h⟩
    · exact ⟨1, by decide, h⟩
    · exact ⟨2, by decide, h⟩
    · exact ⟨3, by decide, h⟩

theorem any_window_iff (lo hi : Nat → Nat) :
    (beams.any fun k => decide (((⟨⟨lo 0, hi 0⟩, ⟨lo 1, hi 1⟩, ⟨lo 2, hi 2⟩, ⟨lo 3, hi 3⟩⟩ : PerBeam Window).get k).hi
      < ((⟨⟨lo 0, hi 0⟩, ⟨lo 1, hi 1⟩, ⟨lo 2, hi 2⟩, ⟨lo 3, hi 3⟩⟩ : PerBeam Window).get k).lo)) = true
    ↔ ∃ k < 4, hi k < lo k := by
  rw [exists_lt_four]
  simp only [beams, List.any_cons, List.any_nil, Bool.or_false, Bool.or_eq_true, decide_eq_true_eq]
  exact Iff.rfl

theorem exposeSetupBody_of_length {body : List Byte} (h : body.length = 34) : exposeSetupBody body =
    some (⟨field body 0 1, field body 1 2, field body 3 2,
      (List.range 8).map fun i => if field body (5 + i) 1 = 255 then none else some (field body (5 + i) 1),
      field body 13 2, field body 15 2, BitVec.ofNat 4 (field body 17 1),
      ⟨⟨field body (18 + 4 * 0) 2, field body (20 + 4 * 0) 2⟩, ⟨field body (18 + 4 * 1) 2, field body (20 + 4 * 1) 2⟩,
        ⟨field body (18 + 4 * 2) 2, field body (20 + 4 * 2) 2⟩, ⟨field body (18 + 4 * 3) 2, field body (20 + 4 * 3) 2⟩⟩⟩,
      field body 17 1) :=
  if_pos h

/-- A setup in range is stored, and the reply tells where, the D stored, and the clamp. -/
theorem exposeSetup_stored {s : State} {m : Message} {rest : List Message} {u : Setup} {beamByte : Nat}
    (hm : s.Heads m rest) (hk : m.kind = 0x0A) (hb : exposeSetupBody m.body = some (u, beamByte))
    (hr : u.refused beamByte = false) : Answers .exposeSetup s
      ((s.withEngine (s.engine.store u.clamped)).replied m.tag rest .ok
        [if s.engine.state = .idle then 0 else 1, byteOf (min u.demand 24), if 24 < u.demand then 1 else 0]) := by
  refine hm.does (f := Machine.exposeSetup) rfl hk ?_
  simp only [Machine.exposeSetup, hb, hr]
  rw [if_neg (by decide), hm.answerOver (u := s.withEngine (s.engine.store u.clamped)) rfl rfl rfl rfl]
  congr 1
  rw [encBool, encBool, encBE_one]
  by_cases h1 : s.engine.state = .idle <;> by_cases h2 : 24 < u.demand <;> simp [h1, h2, Setup.clamped]

/-- Settles O41. -/
theorem Settled.exposeSetup : Obligations.ExposeSetup := by
  intro s m rest hm hk
  refine ⟨fun hl => hm.answers (f := Machine.exposeSetup) rfl hk (by
    simp only [Machine.exposeSetup, exposeSetupBody, if_neg hl]), fun hl => ?_⟩
  intro d timeout x pattern gate interval set lo hi bad u
  have hbody := exposeSetupBody_of_length hl
  obtain ⟨v, hv⟩ : ∃ v, exposeSetupBody m.body = some (v, set) ∧ v.clamped = u ∧ v.demand = d
      ∧ (v.refused set = true ↔ bad) := by
    refine ⟨_, hbody, rfl, rfl, ?_⟩
    simp only [Setup.refused, Bool.or_eq_true, decide_eq_true_eq, any_pattern_iff fun i => field m.body (5 + i) 1,
      any_window_iff (fun k => field m.body (18 + 4 * k) 2) (fun k => field m.body (20 + 4 * k) 2), bad, or_assoc]
    rfl
  obtain ⟨hv, hclamped, hd, hbad⟩ := hv
  refine ⟨fun h => hm.answers (f := Machine.exposeSetup) rfl hk ?_, fun h hi => ?_, fun h hi => ?_⟩
  · simp only [Machine.exposeSetup, hv]
    exact if_pos (hbad.mpr h)
  · have hdone := exposeSetup_stored hm hk hv (by rw [Bool.eq_false_iff]; exact mt hbad.mp h)
    rwa [hclamped, hd, if_pos hi, Engine.store, if_pos hi] at hdone
  · have hdone := exposeSetup_stored hm hk hv (by rw [Bool.eq_false_iff]; exact mt hbad.mp h)
    rwa [hclamped, hd, if_neg hi, Engine.store, if_neg hi] at hdone

end Sys2Proof.Machine

/-! The band decision and the fetch's urgency, the second and third parts of FETCH_LINE_BEGIN (O42). -/

namespace Sys2Proof.Machine

/-! ### The oldest record -/

/-- The first element of an indexed list that satisfies `which`. -/
theorem first_indexed {α : Type} {before after : List α} {a : α} {which : α → Bool} (ha : which a = true)
    (hbefore : ∀ x ∈ before, which x = false) :
    (indexed (before ++ a :: after)).find? (fun r => which r.2) = some (before.length, a) := by
  have hnone : (indexed before).find? (fun r => which r.2) = none := by
    refine List.find?_eq_none.mpr fun r hr => ?_
    obtain ⟨i, hi, rfl⟩ := List.mem_mapIdx.mp hr
    simp [hbefore _ (List.getElem_mem hi)]
  rw [indexed_at, List.find?_append, hnone, List.find?_cons, ha]
  rfl

theorem oldest_first {p : Plate} {before after : List DamageRecord} {r : DamageRecord} {which : DamageRecord → Bool}
    (hp : p.damage = before ++ r :: after) (hr : which r = true) (hbefore : ∀ x ∈ before, which x = false) :
    p.oldest which = some (before.length, r.cause) := by
  simp only [Plate.oldest, hp, first_indexed hr hbefore, Option.map_some]

theorem oldest_none {p : Plate} {which : DamageRecord → Bool} (h : ∀ r ∈ p.damage, which r = false) :
    p.oldest which = none := by
  have hnone : (indexed p.damage).find? (fun r => which r.2) = none := by
    refine List.find?_eq_none.mpr fun r hr => ?_
    obtain ⟨i, hi, rfl⟩ := List.mem_mapIdx.mp hr
    simp [h _ (List.getElem_mem hi)]
  simp only [Plate.oldest, hnone, Option.map_none]

theorem markDamaged_first {s : State} {p : Plate} {b : Nat} {before after : List DamageRecord} {r : DamageRecord}
    (hp : p.damage = before ++ r :: after) (hr : (r.cause = .code ∨ r.cause = .content) ∧ r.band = b)
    (hbefore : ∀ x ∈ before, ¬((x.cause = .code ∨ x.cause = .content) ∧ x.band = b)) :
    s.markDamaged p b = s.requestMark r.cause (256 * b) (some before.length) := by
  unfold State.markDamaged
  rw [oldest_first hp (by simpa using hr) (by simpa using hbefore)]

theorem markDamaged_none {s : State} {p : Plate} {b : Nat}
    (h : ∀ x ∈ p.damage, ¬((x.cause = .code ∨ x.cause = .content) ∧ x.band = b)) :
    s.markDamaged p b = s.requestMark .code (256 * b) none := by
  unfold State.markDamaged
  rw [oldest_none (by simpa using h)]

theorem markStarved_first {s : State} {p : Plate} {b : Nat} {before after : List DamageRecord} {r : DamageRecord}
    (hp : p.damage = before ++ r :: after) (hr : r.cause = .starved ∧ r.band = b)
    (hbefore : ∀ x ∈ before, ¬(x.cause = .starved ∧ x.band = b)) :
    s.markStarved p b = s.requestMark .starved (256 * b) (some before.length) := by
  unfold State.markStarved
  rw [oldest_first hp (by simpa using hr) (by simpa using hbefore)]
  rfl

theorem markStarved_none {s : State} {p : Plate} {b : Nat} (h : ∀ x ∈ p.damage, ¬(x.cause = .starved ∧ x.band = b)) :
    s.markStarved p b = s.requestMark .starved (256 * b) none := by
  unfold State.markStarved
  rw [oldest_none (by simpa using h)]
  rfl

/-! ### What the discarding and the marking look at -/

theorem discard_congr {s x : State} (hsegs : x.segs = s.segs) (hscreens : x.screens = s.screens) (which : Entry → Bool) :
    (x.discard which).segs = (s.discard which).segs ∧ (x.discard which).screens = (s.discard which).screens := by
  simp [State.discard, State.queuedOf, hsegs, hscreens]

theorem requestMark_congr {s x : State} (hengine : x.engine = s.engine) (hmarks : x.marks = s.marks) (c : Cause)
    (line : Nat) (link : Option Nat) : (x.requestMark c line link).marks = (s.requestMark c line link).marks := by
  unfold State.requestMark
  rw [hengine]
  split <;> simp [hmarks]

theorem addRecord_queue (s : State) (id : Nat) (r : DamageRecord) : (s.addRecord id r).table.queue = s.table.queue := by
  unfold State.addRecord
  split <;> simp [State.modPlate]

theorem ofBand_eq (id b : Nat) : ofBand id b = fun e =>
    e.linked && (decide (e.header.plate = id) && decide (e.header.band = b)) := by
  funext e
  simp [ofBand, ofPlate, Bool.and_assoc]

theorem queuedOf_ofBand (s : State) (id b : Nat) : s.queuedOf (ofBand id b) =
    s.ending fun h => decide (h.plate = id) && decide (h.band = b) := by
  rw [ofBand_eq]
  refine List.filter_congr fun e _ => ?_
  by_cases h : e.state = .queued <;> by_cases h' : e.linked = true <;> simp [h, h']

/-! ### A band that starves -/

/-- A band starves: its state, its record and its mark request, before its segments end. -/
def State.starveNoted (s : State) (p : Plate) (copy b : Nat) (band : Band) : State :=
  ((s.modBand p.id b Band.starved).returnBuffers band.starvedBuffer).addMarked p.id (starvedRecord p copy b) (256 * b)

theorem starve_eq (s : State) (p : Plate) (copy b : Nat) (band : Band) : s.starve p copy b band =
    (((s.starveNoted p copy b band).discardLate p.id b copy).interrupt
      fun h => decide (h.plate = p.id) && decide (h.band = b)).releaseRing := rfl

theorem starveNoted_does {s : State} {p : Plate} {b : Nat} {x : Band} (copy : Nat) (hp : s.plate? p.id = some p)
    (hb : p.bands[b]? = some x) :
    let u := s.starveNoted p copy b x
    u.plate? p.id = some ((p.withBand b x.starved).withRecord (starvedRecord p copy b))
    ∧ u.link = (if p.damage.length < 64 then s.link.post (.damage p.id p.damage.length (starvedRecord p copy b)) else s.link)
    ∧ u.pool = ⟨s.pool.free ++ x.starvedBuffer⟩ ∧ u.segs = s.segs ∧ u.screens = s.screens ∧ u.feed = s.feed
    ∧ u.arbiter = s.arbiter ∧ u.table.queue = s.table.queue
    ∧ u.marks = (s.requestMark .starved (256 * b) (if p.damage.length < 64 then some p.damage.length else none)).marks := by
  intro u
  have hband : p.modBand b Band.starved = p.withBand b x.starved := by
    simp only [Plate.modBand, Plate.withBand, modify_eq_set _ hb]
  let y := (s.modBand p.id b Band.starved).returnBuffers x.starvedBuffer
  have hy : y.plate? (p.withBand b x.starved).id = some (p.withBand b x.starved) :=
    (plate?_modPlate_self (f := fun p => p.modBand b Band.starved) (fun _ => rfl) hp).trans (congrArg some hband)
  have hindex : y.recordIndex p.id = if p.damage.length < 64 then some p.damage.length else none :=
    recordIndex_eq (p := p.withBand b x.starved) hy
  have hu : u = (y.addRecord p.id (starvedRecord p copy b)).requestMark .starved (256 * b)
      (if p.damage.length < 64 then some p.damage.length else none) := by
    rw [← hindex]
    rfl
  have hmarks : (y.addRecord p.id (starvedRecord p copy b)).marks = s.marks := by simp [y, State.modBand, State.modPlate, State.returnBuffers]
  refine ⟨?_, ?_, by simp [u, State.starveNoted, State.returnBuffers, State.modBand, State.modPlate], ?_, ?_, ?_, ?_, ?_, ?_⟩
  · rw [hu]
    exact (plate?_of_table (s := y.addRecord p.id (starvedRecord p copy b)) (by simp) _).trans
      (addRecord_plate? (p := p.withBand b x.starved) hy _)
  · rw [hu, (requestMark_frame _ _ _ _).2.1]
    exact addRecord_link (p := p.withBand b x.starved) hy _
  · simp [u, State.starveNoted, State.returnBuffers, State.modBand, State.modPlate]
  · simp [u, State.starveNoted, State.returnBuffers, State.modBand, State.modPlate]
  · simp [u, State.starveNoted, State.returnBuffers, State.modBand, State.modPlate]
  · simp [u, State.starveNoted, State.returnBuffers, State.modBand, State.modPlate]
  · rw [hu, (requestMark_frame _ _ _ _).2.2.2.2.2.1, addRecord_queue]
    rfl
  · rw [hu]
    exact requestMark_congr (by simp [y, State.modBand, State.modPlate, State.returnBuffers]) hmarks _ _ _

theorem discardLate_does {s : State} {id b copy : Nat} {q : Plate} (hq : s.plate? id = some q) :
    let u := s.discardLate id b copy
    let n := (s.queuedOf (ofBand id b)).length
    u.plate? id = some { q with late := satAdd q.late n }
    ∧ u.link = (if n = 0 then s.link else s.link.post (.bandLate id b n copy))
    ∧ u.segs = (s.discard (ofBand id b)).segs ∧ u.screens = (s.discard (ofBand id b)).screens
    ∧ u.table.queue = s.table.queue := by
  intro u n
  obtain rfl := (plate?_some hq).1
  have hplate : ((s.discard (ofBand q.id b)).modPlate q.id fun p => { p with late := satAdd p.late n }).plate? q.id =
      some { q with late := satAdd q.late n } :=
    plate?_modPlate_self (s := s.discard (ofBand q.id b)) (p := q) (f := fun p => { p with late := satAdd p.late n })
      (fun _ => rfl) ((plate?_of_table (by simp) _).trans hq)
  have hu : u = if n = 0 then (s.discard (ofBand q.id b)).modPlate q.id fun p => { p with late := satAdd p.late n }
      else ((s.discard (ofBand q.id b)).modPlate q.id fun p => { p with late := satAdd p.late n }).post (.bandLate q.id b n copy) := rfl
  rw [hu]
  split_ifs
  · refine ⟨hplate, by simp [State.modPlate], rfl, rfl, by simp [State.modPlate]⟩
  · refine ⟨hplate, by simp [State.modPlate, State.post], rfl, rfl, by simp [State.modPlate, State.post]⟩

/-! ### The decision -/

theorem decideBand_eq {s : State} {t : Taken} {p : Plate} {b : Nat} {x : Band} (ht : s.engine.taken = some t)
    (hp : s.plate? t.plate = some p) (hb : p.bands[b]? = some x) : s.decideBand b = match x.state with
      | .ready =>
        let s := s.modBand p.id b fun x => { x with state := .exposing }
        if x.damaged then s.markDamaged p b else s
      | .empty | .filling => s.starve p t.copy b x
      | .starved => s.markStarved p b
      | .blank | .exposing | .exposed => s := by
  simp only [State.decideBand, takenPlate?_eq ht hp, hb] <;> cases x.state <;> rfl

theorem starve_does {s : State} {p : Plate} {b : Nat} {x : Band} (copy : Nat) (hp : s.plate? p.id = some p)
    (hb : p.bands[b]? = some x) :
    let u := s.starve p copy b x
    let which (h : Header) : Bool := decide (h.plate = p.id) && decide (h.band = b)
    let n := (s.ending which).length
    let record : DamageRecord := ⟨.starved, copy, b, 256 * b, p.lastLine b, none, none, none, none, none⟩
    let stored := p.damage.length < 64
    let s1 := if stored then s.post (.damage p.id p.damage.length record) else s
    let s2 := if n = 0 then s1 else s1.post (.bandLate p.id b n copy)
    u.plate? p.id = some { p with
        bands := p.bands.modify b fun _ =>
          { x with state := .starved, buffer := if x.rendering then x.buffer else none }
        damage := if stored then p.damage ++ [record] else p.damage
        overflow := if stored then p.overflow else min (p.overflow + 1) 65535
        late := min (p.late + n) 65535 }
      ∧ u.pool.free = s.pool.free ++ (if x.rendering then [] else x.buffer.toList)
      ∧ SegmentsEnd s u which
      ∧ u.link = (s2.tellInterrupted which).link
      ∧ u.marks = (s.requestMark .starved (256 * b) (if stored then some p.damage.length else none)).marks
      ∧ u.table.queue = s.table.queue ∧ u.feed.counters = s.feed.counters := by
  intro u which n record stored s1 s2
  let y := s.starveNoted p copy b x
  let z := y.discardLate p.id b copy
  have hu : u = (z.interrupt which).releaseRing := starve_eq s p copy b x
  obtain ⟨hplate, hlink, hpool, hsegs, hscreens, hfeed, harbiter, hqueue, hmarks⟩ := starveNoted_does copy hp hb
  obtain ⟨hzplate, hzlink, hzsegs, hzscreens, hzqueue⟩ := discardLate_does (b := b) (copy := copy) hplate
  have hn : (y.queuedOf (ofBand p.id b)).length = n := by
    rw [queuedOf_ofBand]
    simp only [State.ending, hsegs, y]
    rfl
  have hover : (if 64 ≤ p.damage.length then min (p.overflow + 1) 65535 else p.overflow)
      = if stored then p.overflow else min (p.overflow + 1) 65535 := by
    by_cases h : p.damage.length < 64
    · rw [if_neg (Nat.not_le.mpr h), if_pos h]
    · rw [if_pos (Nat.le_of_not_lt h), if_neg h]
  have hdiscard := discard_congr hsegs hscreens (ofBand p.id b)
  have hs1 : s1.link = if p.damage.length < 64 then s.link.post (.damage p.id p.damage.length (starvedRecord p copy b))
      else s.link := by
    simp only [s1]
    split_ifs <;> rfl
  have hs2 : z.link = s2.link := by
    refine hzlink.trans ?_
    rw [hn, hlink, ← hs1]
    simp only [s2]
    split_ifs <;> rfl
  have hs2feed : s2.feed = s.feed := by
    simp only [s2, s1]
    split_ifs <;> rfl
  have hzfeed : z.feed = s.feed := by
    refine Eq.trans ?_ hfeed
    simp [z, y]
  refine ⟨?_, ?_, ?_, ?_, ?_, ?_, ?_⟩
  · rw [hu]
    refine (plate?_of_table (s := z) (by simp) _).trans (hzplate.trans ?_)
    rw [hn, ← hover]
    simp only [Plate.withRecord, Plate.withBand]
    rfl
  · have hz : u.pool = y.pool := by simp [hu, z]
    rw [hz, hpool]
    rfl
  · rw [hu]
    refine segmentsEnd_of ?_ ?_ ⟨by rw [hzfeed], by rw [hzfeed]⟩ ?_
    · exact hzsegs.trans (hdiscard.1.trans (by rw [ofBand_eq]))
    · exact hzscreens.trans (hdiscard.2.trans (by rw [ofBand_eq]))
    · refine Eq.trans ?_ harbiter
      simp [z, y]
  · rw [hu, (releaseRing_frame _).2.1, interrupt_link]
    exact tellInterrupted_link (by rw [hzfeed, hs2feed]) hs2 which
  · have hz : u.marks = y.marks := by simp [hu, z]
    rw [hz]
    exact hmarks
  · have hz : u.table = z.table := by simp [hu]
    rw [hz]
    exact hzqueue.trans hqueue
  · rw [hu, (releaseRing_feed _).2.2.1, interrupt_counters, hzfeed]

/-- The band decision, as FETCH_LINE_BEGIN makes it (R7, R112, R155). -/
theorem decideBand_does (s : State) (t : Taken) (p : Plate) (b : Nat) (x : Band) (ht : s.engine.taken = some t)
    (hp : s.plate? t.plate = some p) (hb : p.bands[b]? = some x) :
    let exposing := s.modBand p.id b fun x => { x with state := .exposing }
    let damaged (r : DamageRecord) : Prop := (r.cause = .code ∨ r.cause = .content) ∧ r.band = b
    let starved (r : DamageRecord) : Prop := r.cause = .starved ∧ r.band = b
    ((x.state = .blank ∨ x.state = .exposing ∨ x.state = .exposed) → s.decideBand b = s)
    ∧ (x.state = .ready →
      (x.damaged = false → s.decideBand b = exposing)
      ∧ (x.damaged = true →
        (∀ before r after, p.damage = before ++ r :: after → damaged r → (∀ y ∈ before, ¬damaged y) →
          s.decideBand b = exposing.requestMark r.cause (256 * b) (some before.length))
        ∧ ((∀ r ∈ p.damage, ¬damaged r) → s.decideBand b = exposing.requestMark .code (256 * b) none)))
    ∧ (x.state = .starved →
      (∀ before r after, p.damage = before ++ r :: after → starved r → (∀ y ∈ before, ¬starved y) →
        s.decideBand b = s.requestMark .starved (256 * b) (some before.length))
      ∧ ((∀ r ∈ p.damage, ¬starved r) → s.decideBand b = s.requestMark .starved (256 * b) none))
    ∧ ((x.state = .empty ∨ x.state = .filling) → s.decideBand b = s.starve p t.copy b x) := by
  intro exposing damaged starved
  have heq := decideBand_eq ht hp hb
  refine ⟨fun h => ?_, fun h => ⟨fun hd => ?_, fun hd => ⟨fun before r after hcat hr hbefore => ?_, fun hno => ?_⟩⟩,
    fun h => ⟨fun before r after hcat hr hbefore => ?_, fun hno => ?_⟩, fun h => ?_⟩
  · rcases h with h | h | h <;> rw [heq, h]
  · rw [heq, h]
    exact if_neg (by simp [hd])
  · rw [heq, h]
    exact (if_pos hd).trans (markDamaged_first hcat hr hbefore)
  · rw [heq, h]
    exact (if_pos hd).trans (markDamaged_none hno)
  · rw [heq, h]
    exact markStarved_first hcat hr hbefore
  · rw [heq, h]
    exact markStarved_none hno
  · rcases h with h | h <;> rw [heq, h]

/-! ### The fetch's urgency -/

theorem testUrgency_eq (e : Engine) : e.testUrgency = { e with
    urgent := e.running
      && (decide (e.fifo.length ≤ e.active.demand) || e.urgent && decide (e.fifo.length < e.active.demand + 8)) } := by
  unfold Engine.testUrgency urgencyAfter
  congr 1
  cases e.running with
  | false => rfl
  | true =>
    by_cases h1 : e.fifo.length ≤ e.active.demand
    · simp [h1]
    · by_cases h2 : e.active.demand + 8 ≤ e.fifo.length
      · simp [h1, h2]
      · simp [h1, h2, Nat.lt_of_not_le h2]

end Sys2Proof.Machine

/-! FETCH_LINE_BEGIN (O42): the line the fetch begins, read from its band's buffer or white at once. -/

namespace Sys2Proof.Machine

/-! ### Plates that keep what was defined -/

/-- A plate record as another but for its state, its bands, its counts and its records. -/
structure Plate.Like (q p : Plate) : Prop where
  id : q.id = p.id
  width : q.width = p.width
  height : q.height = p.height
  copies : q.copies = p.copies
  stamps : q.stamps = p.stamps

theorem Plate.Like.refl (p : Plate) : p.Like p := ⟨rfl, rfl, rfl, rfl, rfl⟩

theorem Plate.Like.trans {p q r : Plate} (h : r.Like q) (h' : q.Like p) : r.Like p :=
  ⟨h.id.trans h'.id, h.width.trans h'.width, h.height.trans h'.height, h.copies.trans h'.copies, h.stamps.trans h'.stamps⟩

/-! ### The band decision, as the fetch finds it -/

theorem decideBand_no_band {s : State} {t : Taken} {p : Plate} {b : Nat} (ht : s.engine.taken = some t)
    (hp : s.plate? t.plate = some p) (hb : p.bands[b]? = none) : s.decideBand b = s := by
  simp only [State.decideBand, takenPlate?_eq ht hp, hb]

/-- A READY band becomes EXPOSING; nothing else of the table changes. -/
theorem decideBand_ready {s : State} {t : Taken} {p : Plate} {b : Nat} {x : Band} (ht : s.engine.taken = some t)
    (hp : s.plate? t.plate = some p) (hb : p.bands[b]? = some x) (h : x.state = .ready) :
    (s.decideBand b).plate? t.plate = some (p.withBand b { x with state := .exposing })
      ∧ (s.decideBand b).pool = s.pool := by
  have hid := (plate?_some hp).1
  have hband : (p.modBand b fun x => { x with state := .exposing }) = p.withBand b { x with state := .exposing } := by
    simp only [Plate.modBand, Plate.withBand, modify_eq_set _ hb]
  have hplate : (s.modBand p.id b fun x => { x with state := .exposing }).plate? t.plate =
      some (p.withBand b { x with state := .exposing }) := by
    have hself := plate?_modPlate_self (p := p) (f := fun p => p.modBand b fun x => { x with state := .exposing })
      (fun _ => rfl) (hid ▸ hp)
    rw [hband, hid] at hself
    rwa [hid]
  rw [decideBand_eq ht hp hb, h]
  dsimp only
  split_ifs
  · exact ⟨(plate?_of_table (by simp) _).trans hplate, by simp [State.modBand, State.modPlate]⟩
  · exact ⟨hplate, rfl⟩

/-- A band already past its decision, or BLANK, changes nothing of the table. -/
theorem decideBand_standing {s : State} {t : Taken} {p : Plate} {b : Nat} {x : Band} (ht : s.engine.taken = some t)
    (hp : s.plate? t.plate = some p) (hb : p.bands[b]? = some x)
    (h : x.state = .blank ∨ x.state = .starved ∨ x.state = .exposing ∨ x.state = .exposed) :
    (s.decideBand b).table = s.table ∧ (s.decideBand b).pool = s.pool := by
  rw [decideBand_eq ht hp hb]
  rcases h with h | h | h | h <;> rw [h] <;> simp

theorem decideBand_like {s : State} {t : Taken} {p : Plate} (b : Nat) (ht : s.engine.taken = some t)
    (hp : s.plate? t.plate = some p) : ∃ q, (s.decideBand b).plate? t.plate = some q ∧ q.Like p := by
  have hid := (plate?_some hp).1
  cases hb : p.bands[b]? with
  | none => exact ⟨p, by rwa [decideBand_no_band ht hp hb], .refl p⟩
  | some x =>
    have hstarve : s.decideBand b = s.starve p t.copy b x → ∃ q, (s.decideBand b).plate? t.plate = some q ∧ q.Like p :=
      fun h => by
        have hplate := (starve_does t.copy (hid ▸ hp) hb).1
        rw [hid] at hplate
        rw [h]
        exact ⟨_, hplate, ⟨hid.symm, rfl, rfl, rfl, rfl⟩⟩
    have hstands (h : x.state = .blank ∨ x.state = .starved ∨ x.state = .exposing ∨ x.state = .exposed) :
        ∃ q, (s.decideBand b).plate? t.plate = some q ∧ q.Like p :=
      ⟨p, (plate?_of_table (decideBand_standing ht hp hb h).1 _).trans hp, .refl p⟩
    have hdoes := (decideBand_does s t p b x ht hp hb).2.2.2
    cases hx : x.state with
    | ready => exact ⟨_, (decideBand_ready ht hp hb hx).1, ⟨rfl, rfl, rfl, rfl, rfl⟩⟩
    | empty => exact hstarve (hdoes (.inl hx))
    | filling => exact hstarve (hdoes (.inr hx))
    | blank => exact hstands (.inl hx)
    | starved => exact hstands (.inr (.inl hx))
    | exposing => exact hstands (.inr (.inr (.inl hx)))
    | exposed => exact hstands (.inr (.inr (.inr hx)))

/-! ### A line passed -/

theorem passLine_engine (s : State) (plate copy line : Nat) : (s.passLine plate copy line).engine = s.engine
    ∨ (s.passLine plate copy line).engine = { s.engine with running := false, urgent := false } := by
  unfold State.passLine
  split
  · split_ifs <;> simp [endFetch_eq]
  · exact .inl rfl

theorem modify_still {α : Type} {l : List α} {n : Nat} {x : α} {f : α → α} (h : l[n]? = some x) (hf : f x = x) :
    l.modify n f = l := by
  refine List.ext_getElem? fun i => ?_
  rw [List.getElem?_modify]
  by_cases hi : n = i
  · subst hi
    simp [h, hf]
  · simp [hi]

/-- The end of its fetch leaves a band that is not EXPOSING. -/
theorem endBandFetch_still {s : State} {p : Plate} {copy b : Nat} {x : Band} (hp : s.plate? p.id = some p)
    (hb : p.bands[b]? = some x) (hx : x.state ≠ .exposing) :
    (s.endBandFetch p copy b).plate? p.id = some p ∧ (s.endBandFetch p copy b).pool = s.pool := by
  have hfetched (final : Bool) : x.fetched final = x := if_neg hx
  have hnone (final : Bool) : x.fetchedBuffer final = none := if_neg fun h => hx h.1
  have hself : p.modBand b (Band.fetched (!decide (copy < p.copies))) = p := by
    rw [Plate.modBand, modify_still hb (hfetched _)]
  rw [endBandFetch_eq hb, hnone]
  refine ⟨(plate?_of_table (s := s.modBand p.id b (Band.fetched (!decide (copy < p.copies)))) rfl _).trans
    ((plate?_modPlate_self (f := fun p => p.modBand b (Band.fetched _)) (fun _ => rfl) hp).trans (congrArg some hself)), ?_⟩
  simp

theorem passLine_still {s : State} {t : Taken} {p : Plate} {line : Nat} (ht : s.engine.taken = some t)
    (hp : s.plate? t.plate = some p) (hx : line < p.height → ∃ x, p.bands[line / 256]? = some x ∧ x.state ≠ .exposing) :
    (s.passLine t.plate t.copy line).plate? t.plate = some p ∧ (s.passLine t.plate t.copy line).pool = s.pool := by
  have hid := (plate?_some hp).1
  have hs1 : (if line < p.height ∧ p.lastLine (line / 256) = line then s.endBandFetch p t.copy (line / 256) else s).plate?
      t.plate = some p ∧ (if line < p.height ∧ p.lastLine (line / 256) = line then s.endBandFetch p t.copy (line / 256)
        else s).pool = s.pool := by
    split_ifs with h
    · obtain ⟨x, hb, hne⟩ := hx h.1
      rw [← hid] at hp ⊢
      exact endBandFetch_still hp hb hne
    · exact ⟨hp, rfl⟩
  rw [passLine_taken (copy := t.copy) ht hp]
  dsimp only
  split_ifs at hs1 ⊢
  all_goals exact hs1

theorem passLine_like {s : State} {t : Taken} {p : Plate} (plate copy line : Nat) (ht : s.engine.taken = some t)
    (hp : s.plate? t.plate = some p) : ∃ q, (s.passLine plate copy line).plate? t.plate = some q ∧ q.Like p := by
  have hmod (b : Nat) (f : Band → Band) (free : List Nat) :
      ∃ q, ((s.modBand p.id b f).withPool ⟨free⟩).plate? t.plate = some q ∧ q.Like p := by
    refine ⟨p.modBand b f, ?_, ⟨rfl, rfl, rfl, rfl, rfl⟩⟩
    have hid := (plate?_some hp).1
    rw [← hid]
    exact plate?_modPlate_self (f := fun p => p.modBand b f) (fun _ => rfl) (hid ▸ hp)
  have hend (b : Nat) : ∃ q, (s.endBandFetch p copy b).plate? t.plate = some q ∧ q.Like p := by
    cases hb : p.bands[b]? with
    | none => exact ⟨p, by rwa [endBandFetch_none hb], .refl p⟩
    | some x =>
      rw [endBandFetch_eq hb]
      exact hmod _ _ _
  unfold State.passLine
  rw [takenPlate?_eq ht hp]
  dsimp only
  split_ifs
  · exact hend _
  · exact ⟨p, hp, .refl p⟩
  · exact hend _
  · exact ⟨p, hp, .refl p⟩
  · exact ⟨p, hp, .refl p⟩

/-! ### A line produced -/

theorem sourceOf_some {p : Plate} {l n : Nat} {b : Band} (hl : l < p.height) (hb : p.bands[l / 256]? = some b)
    (hs : b.state = .exposing) (hn : b.buffer = some n) : p.sourceOf l = some n := by
  simp [Plate.sourceOf, hl, hb, hs, hn]

theorem sourceOf_none {p : Plate} {l : Nat}
    (h : l < p.height → ∀ b, p.bands[l / 256]? = some b → b.state ≠ .exposing ∨ b.buffer = none) : p.sourceOf l = none := by
  unfold Plate.sourceOf
  split_ifs with hl
  · cases hb : p.bands[l / 256]? with
    | none => rfl
    | some b =>
      rcases h hl b hb with h | h
      · exact if_neg h
      · simp [h]
  · rfl

theorem produceLine_read {s : State} {t : Taken} {p : Plate} {l n : Nat} (h : p.sourceOf l = some n) :
    s.produceLine t p l = s.withEngine { s.engine with read := some (readOf t p l n) } := by
  simp only [State.produceLine, h]

theorem produceLine_white {s : State} {t : Taken} {p : Plate} {l : Nat} (h : p.sourceOf l = none) :
    s.produceLine t p l = (s.withEngine (s.engine.join l (whiteBytes p.lineBytes))).passLine t.plate t.copy l := by
  simp only [State.produceLine, h]

/-! ### The line begun -/

/-- The state as the band decision of line `l` is made, where it is a band's first (R110). -/
def State.lineDecided (s : State) (p : Plate) (l : Nat) : State :=
  if l < p.height ∧ l % 256 = 0 then (s.withEngine { s.engine with fetchPos := l + 1 }).decideBand (l / 256)
  else s.withEngine { s.engine with fetchPos := l + 1 }

theorem lineDecided_engine (s : State) (p : Plate) (l : Nat) :
    (s.lineDecided p l).engine = { s.engine with fetchPos := l + 1 } := by
  unfold State.lineDecided
  split_ifs <;> simp

theorem lineDecided_frame (s : State) (p : Plate) (l : Nat) : (s.lineDecided p l).memory = s.memory
    ∧ (s.lineDecided p l).monitor = s.monitor ∧ (s.lineDecided p l).stamps = s.stamps := by
  unfold State.lineDecided
  split_ifs <;> simp

theorem lineDecided_like {s : State} {t : Taken} {p : Plate} (l : Nat) (ht : s.engine.taken = some t)
    (hp : s.plate? t.plate = some p) : ∃ q, (s.lineDecided p l).plate? t.plate = some q ∧ q.Like p := by
  unfold State.lineDecided
  split_ifs
  · exact decideBand_like (s := s.withEngine { s.engine with fetchPos := l + 1 }) _ ht hp
  · exact ⟨p, hp, .refl p⟩

theorem beginLine_eq {s : State} {t : Taken} {p q : Plate} {l : Nat} (ht : s.engine.taken = some t)
    (hp : s.plate? t.plate = some p) (hq : (s.lineDecided p l).plate? t.plate = some q) :
    s.beginLine l = (s.lineDecided p l).produceLine t q l := by
  have hmoved : (s.withEngine { s.engine with fetchPos := l + 1 }).takenPlate? = some (t, p) := takenPlate?_eq ht hp
  have hdecided : (s.lineDecided p l).takenPlate? = some (t, q) :=
    takenPlate?_eq (by rw [lineDecided_engine]; exact ht) hq
  have hsame : s.lineDecided p l = if l % 256 = 0 ∧ l < p.height then
      (s.withEngine { s.engine with fetchPos := l + 1 }).decideBand (l / 256)
      else s.withEngine { s.engine with fetchPos := l + 1 } := by
    unfold State.lineDecided
    simp only [and_comm]
  unfold State.beginLine
  simp only [hmoved]
  rw [← hsame]
  simp only [hdecided]

/-- A line is white where its band, as decided, is not EXPOSING or has no buffer, and past the plate's height. -/
theorem beginLine_white {s : State} {t : Taken} {p q : Plate} {l : Nat} (ht : s.engine.taken = some t)
    (hp : s.plate? t.plate = some p) (hq : (s.lineDecided p l).plate? t.plate = some q) (hlike : q.Like p)
    (h : l < p.height → ∀ b, q.bands[l / 256]? = some b → b.state ≠ .exposing ∨ b.buffer = none) :
    s.beginLine l = ((s.lineDecided p l).withEngine
      ({ s.engine with
        fetchPos := l + 1, fifo := s.engine.fifo ++ [⟨l, List.replicate (p.width / 8) 0⟩] } : Engine).testUrgency).passLine
          t.plate t.copy l := by
  rw [beginLine_eq ht hp hq, produceLine_white (sourceOf_none (by rwa [hlike.height])), Engine.join, lineDecided_engine,
    Plate.lineBytes, hlike.width]
  rfl

theorem beginLine_read {s : State} {t : Taken} {p q : Plate} {l n : Nat} {b : Band} (ht : s.engine.taken = some t)
    (hp : s.plate? t.plate = some p) (hq : (s.lineDecided p l).plate? t.plate = some q) (hlike : q.Like p)
    (hl : l < p.height) (hb : q.bands[l / 256]? = some b) (hs : b.state = .exposing) (hn : b.buffer = some n) :
    s.beginLine l = (s.lineDecided p l).withEngine { (s.lineDecided p l).engine with
      read := some ⟨t.plate, t.copy, l, n * 1048576 + 4096 * (l % 256), p.width / 8, [], .join⟩ } := by
  rw [beginLine_eq ht hp hq, produceLine_read (sourceOf_some (by rwa [hlike.height]) hb hs hn), readOf, Plate.lineBytes,
    hlike.width]
  rfl

theorem fetchDue_of {s : State} {t : Taken} {p : Plate} (ht : s.engine.taken = some t) (hp : s.plate? t.plate = some p)
    (hrun : s.engine.running = true) (hread : s.engine.read = none) (hfifo : s.engine.fifo.length < 32)
    (hl : s.engine.fetchPos < 4 * ((p.height + 3) / 4)) : s.fetchDue = true := by
  simp only [State.fetchDue, takenPlate?_eq ht hp, hrun, hread, Plate.swaths]
  simp [hfifo, hl]

/-- The line begun with the engine it leaves: what a white line leaves of the engine, the table and the pool. -/
theorem white_line_leaves {s : State} {t : Taken} {p q : Plate} {l : Nat} (ht : s.engine.taken = some t)
    (hp : s.plate? t.plate = some p) (hread : s.engine.read = none)
    (hq : (s.lineDecided p l).plate? t.plate = some q) (hlike : q.Like p)
    (h : l < p.height → ∃ b, q.bands[l / 256]? = some b ∧ b.state ≠ .exposing) :
    (s.beginLine l).engine.read = none
      ∧ (s.beginLine l).engine.fifo = s.engine.fifo ++ [⟨l, List.replicate (p.width / 8) 0⟩]
      ∧ (s.beginLine l).pool = (s.lineDecided p l).pool ∧ (s.beginLine l).plate? t.plate = some q
      ∧ (s.beginLine l).segs = (s.lineDecided p l).segs := by
  have hwhite := beginLine_white ht hp hq hlike fun hl b hb => by
    obtain ⟨c, hc, hne⟩ := h hl
    rw [hb] at hc
    obtain rfl := Option.some.inj hc
    exact .inl hne
  have hstill := passLine_still (s := (s.lineDecided p l).withEngine ({ s.engine with
      fetchPos := l + 1, fifo := s.engine.fifo ++ [⟨l, List.replicate (p.width / 8) 0⟩] } : Engine).testUrgency)
    (t := t) (line := l) ht hq (fun hl => h (hlike.height ▸ hl))
  rw [hwhite]
  refine ⟨?_, ?_, hstill.2, hstill.1, by simp⟩
  · rcases passLine_engine ((s.lineDecided p l).withEngine ({ s.engine with
      fetchPos := l + 1, fifo := s.engine.fifo ++ [⟨l, List.replicate (p.width / 8) 0⟩] } : Engine).testUrgency)
      t.plate t.copy l with he | he <;> rw [he] <;> exact hread
  · rcases passLine_engine ((s.lineDecided p l).withEngine ({ s.engine with
      fetchPos := l + 1, fifo := s.engine.fifo ++ [⟨l, List.replicate (p.width / 8) 0⟩] } : Engine).testUrgency)
      t.plate t.copy l with he | he <;> rw [he] <;> rfl

/-- What every line begun leaves of the engine. -/
theorem beginLine_leaves {s : State} {t : Taken} {p : Plate} (l : Nat) (ht : s.engine.taken = some t)
    (hp : s.plate? t.plate = some p) :
    (s.beginLine l).engine.fetchPos = l + 1 ∧ (s.beginLine l).engine.taken = s.engine.taken
      ∧ (s.beginLine l).engine.swath = s.engine.swath ∧ (s.beginLine l).memory = s.memory
      ∧ (s.beginLine l).monitor = s.monitor ∧ (s.beginLine l).stamps = s.stamps := by
  obtain ⟨q, hq, hlike⟩ := lineDecided_like l ht hp
  obtain ⟨hmemory, hmonitor, hstamps⟩ := lineDecided_frame s p l
  have hengine := lineDecided_engine s p l
  rw [beginLine_eq ht hp hq]
  refine ⟨?_, ?_, ?_, by simpa using hmemory, by simpa using hmonitor, by simpa using hstamps⟩
  all_goals
    unfold State.produceLine
    split
    · simp [hengine]
    · rcases passLine_engine ((s.lineDecided p l).withEngine ((s.lineDecided p l).engine.join l (whiteBytes q.lineBytes)))
        t.plate t.copy l with he | he <;> rw [he] <;> simp [Engine.join, Engine.testUrgency, hengine]

theorem lineDecided_plain {s : State} {p : Plate} {l : Nat} (h : ¬(l < p.height ∧ l % 256 = 0)) :
    s.lineDecided p l = s.withEngine { s.engine with fetchPos := l + 1 } := if_neg h

theorem lineDecided_first {s : State} {p : Plate} {l : Nat} (h : l < p.height ∧ l % 256 = 0) :
    s.lineDecided p l = (s.withEngine { s.engine with fetchPos := l + 1 }).decideBand (l / 256) := if_pos h

/-- A band past its decision or BLANK: the decision, where it is made, leaves the table and the pool. -/
theorem lineDecided_standing {s : State} {t : Taken} {p : Plate} {l : Nat} {b : Band} (ht : s.engine.taken = some t)
    (hp : s.plate? t.plate = some p) (hb : p.bands[l / 256]? = some b)
    (h : b.state = .blank ∨ b.state = .starved ∨ b.state = .exposing ∨ b.state = .exposed) :
    (s.lineDecided p l).plate? t.plate = some p ∧ (s.lineDecided p l).pool = s.pool := by
  unfold State.lineDecided
  split_ifs
  · obtain ⟨htable, hpool⟩ := decideBand_standing (s := s.withEngine { s.engine with fetchPos := l + 1 }) ht hp hb h
    exact ⟨(plate?_of_table htable _).trans hp, hpool⟩
  · exact ⟨hp, rfl⟩

/-- No QUEUED entry is left of the segments that ended. -/
theorem segmentsEnd_not_queued {s u : State} {which : Header → Bool} (h : SegmentsEnd s u which) {e : Entry}
    (he : e ∈ u.segs.queue) (hl : e.linked = true) (hw : which e.header = true) : e.state ≠ .queued := by
  rw [h.1] at he
  have hmem := (List.dropWhile_sublist _).subset he
  obtain ⟨x, _, rfl⟩ := List.mem_map.mp hmem
  split_ifs at hl hw ⊢ with hdies
  · simp
  · intro hq
    exact hdies (decide_eq_true (.inl ⟨hq, hl, hw⟩))

/-- Settles O42. -/
theorem fetchLineBegin : Obligations.FetchLineBegin := by
  refine ⟨fun s t p hr ht hp hrun hread hfifo => ?_, fun s t p b x ht hp hb => ?_, testUrgency_eq⟩
  · intro l hl white
    have hid := (plate?_some hp).1
    have hexec : Answers .fetchLineBegin s (s.beginLine l) :=
      answers_eventWhen (due := s.fetchDue) (f := fun s => s.beginLine s.engine.fetchPos) rfl hr
        (fetchDue_of ht hp hrun hread hfifo hl) rfl
    refine ⟨⟨_, hexec, ?_⟩, ?_⟩
    · obtain ⟨h1, h2, h3, h4, h5, h6⟩ := beginLine_leaves l ht hp
      simp only [testStall_frame, State.band?, plate?_of_table (testStall_frame (s.beginLine l)).2.2.2.1]
      refine ⟨h1, h2, h3, h4, h5, h6, fun hpast => ?_, fun b n hin hb hn hs => ?_, fun b hin hb hs => ?_,
        fun b hin hfirst hb hs => ?_⟩
      · have hplain := lineDecided_plain (s := s) fun h : l < p.height ∧ l % 256 = 0 => Nat.not_lt.mpr hpast h.1
        obtain ⟨hw1, hw2, _⟩ := white_line_leaves (q := p) (l := l) ht hp hread (by rw [hplain]; exact hp) (.refl p)
          fun h => absurd h (Nat.not_lt.mpr hpast)
        exact ⟨hw1, hw2⟩
      · obtain ⟨q, hq, hlike, hqb, hpool⟩ : ∃ q, (s.lineDecided p l).plate? t.plate = some q ∧ q.Like p
            ∧ q.bands[l / 256]? = some { b with state := .exposing } ∧ (s.lineDecided p l).pool = s.pool := by
          rcases hs with hs | ⟨hs, hfirst⟩
          · obtain ⟨hq, hpool⟩ := lineDecided_standing ht hp hb (.inr (.inr (.inl hs)))
            exact ⟨p, hq, .refl p, by rw [hb, ← hs], hpool⟩
          · rw [lineDecided_first ⟨hin, hfirst⟩]
            obtain ⟨hq, hpool⟩ := decideBand_ready (s := s.withEngine { s.engine with fetchPos := l + 1 }) ht hp hb hs
            refine ⟨_, hq, ⟨rfl, rfl, rfl, rfl, rfl⟩, ?_, hpool⟩
            simp [Plate.withBand, hb]
        rw [beginLine_read ht hp hq hlike hin hqb rfl hn]
        refine ⟨rfl, by simp [lineDecided_engine], hpool, ?_⟩
        have hsame := plate?_of_table (s := s.lineDecided p l)
          (u := (s.lineDecided p l).withEngine { (s.lineDecided p l).engine with
            read := some ⟨t.plate, t.copy, l, n * 1048576 + 4096 * (l % 256), p.width / 8, [], .join⟩ }) rfl t.plate
        rw [hsame, hq]
        exact hqb
      · have hstands : b.state = .blank ∨ b.state = .starved ∨ b.state = .exposing ∨ b.state = .exposed := by tauto
        obtain ⟨hq, hpool⟩ := lineDecided_standing ht hp hb hstands
        obtain ⟨hw1, hw2, hw3, hw4, _⟩ := white_line_leaves ht hp hread hq (.refl p) fun _ =>
          ⟨b, hb, by rcases hs with hs | hs <;> simp [hs]⟩
        refine ⟨hw1, hw2, hw3.trans hpool, ?_⟩
        rw [hw4]
        exact hb
      · have hstarve := (decideBand_does (s.withEngine { s.engine with fetchPos := l + 1 }) t p (l / 256) b ht hp hb).2.2.2 hs
        have hdoes := starve_does (s := s.withEngine { s.engine with fetchPos := l + 1 }) t.copy (hid ▸ hp) hb
        rw [← hstarve, ← lineDecided_first ⟨hin, hfirst⟩, hid] at hdoes
        obtain ⟨hq, hpool, hsegs, _⟩ := hdoes
        have hqb : (p.bands.modify (l / 256) fun _ =>
            { b with state := .starved, buffer := if b.rendering then b.buffer else none })[l / 256]? =
            some { b with state := .starved, buffer := if b.rendering then b.buffer else none } := by simp [hb]
        obtain ⟨hw1, hw2, hw3, hw4, hw5⟩ := white_line_leaves ht hp hread hq ⟨hid.symm, rfl, rfl, rfl, rfl⟩ fun _ =>
          ⟨_, hqb, by simp⟩
        refine ⟨hw1, hw2, by rw [hw3]; exact hpool, by rw [hw4]; exact hqb, fun e he hl hplate hband => ?_⟩
        rw [hw5] at he
        exact segmentsEnd_not_queued hsegs he hl (by simp [hplate, hband])
    · intro moved decided
      have hdecided : s.lineDecided p l = decided := rfl
      obtain ⟨q, hq, hlike⟩ := lineDecided_like l ht hp
      have hband : decided.band? t.plate (l / 256) = q.bands[l / 256]? := by
        rw [State.band?, ← hdecided, hq]
        rfl
      refine ⟨fun b n hin hb hs hn => ?_, fun hno => ?_⟩
      · rw [hband] at hb
        rwa [beginLine_read ht hp hq hlike hin hb hs hn] at hexec
      · have hwhite := beginLine_white ht hp hq hlike fun hin b hb => hno hin b (hband.trans hb)
        intro joined
        have hjoined : joined = { s.engine with fetchPos := l + 1, fifo := s.engine.fifo ++ [white] } := by
          simp only [joined, ← hdecided, lineDecided_engine]
        rw [hjoined]
        rwa [hwhite] at hexec
  · intro exposing damaged starved
    obtain ⟨h1, h2, h3, h4⟩ := decideBand_does s t p b x ht hp hb
    refine ⟨h1, h2, h3, fun h => ?_⟩
    rw [h4 h]
    intro u which n record stored s1 s2
    have hid := (plate?_some hp).1
    obtain ⟨hplate, hpool, hsegs, hlink, hmarks, hqueue, hcounters⟩ := starve_does t.copy (hid ▸ hp) hb
    exact ⟨hplate, hpool, hsegs, hlink, hmarks, hqueue, by simp [u], by simp [u], by simp [u], hcounters, by simp [u]⟩

end Sys2Proof.Machine

/-! INDEX (O43): a revolution and a copy begun, a revolution ended, and the end of a copy. -/

namespace Sys2Proof.Machine

/-! ### The end of a copy -/

/-- The state as a copy is counted and told (R116, R159), before the next is prepared or the plate is DONE. -/
def State.copyCounted (s : State) (t : Taken) (p : Plate) : State :=
  ((s.stopEngine.endCopyBands p (!decide (p.completed + 1 < p.copies))).modPlate p.id fun q =>
    { q with completed := q.completed + 1 }).post (.copyDone p.id t.copy p.copies p.damage.length p.overflow)

theorem endCopy_eq (s : State) (t : Taken) (p : Plate) : s.endCopy t p =
    if p.completed + 1 < p.copies then (s.copyCounted t p).withEngine ((s.copyCounted t p).engine.nextCopy t)
    else (((((s.copyCounted t p).modPlate p.id fun q => { q with state := .done }).leaveQueue p.id).post
      (.plateDone p.id (p.completed + 1) p.damage.length p.overflow)).enterIdle).takeHead := rfl

theorem copyCounted_parts (s : State) (t : Taken) (p : Plate) :
    (s.copyCounted t p).engine = s.engine.stop ∧ (s.copyCounted t p).pins = s.stopEngine.pins
    ∧ (s.copyCounted t p).monitor = s.stopEngine.monitor ∧ (s.copyCounted t p).marks = s.stopEngine.marks
    ∧ (s.copyCounted t p).link = (s.post (.copyDone p.id t.copy p.copies p.damage.length p.overflow)).link
    ∧ (s.copyCounted t p).table.queue = s.table.queue
    ∧ (s.copyCounted t p).pool = ⟨s.pool.free ++ p.bands.filterMap (Band.fetchedBuffer (!decide (p.completed + 1 < p.copies)))⟩
    ∧ (s.copyCounted t p).segs = s.segs ∧ (s.copyCounted t p).memory = s.memory := by
  refine ⟨?_, ?_, ?_, ?_, ?_, ?_, ?_, ?_, ?_⟩
  all_goals simp [State.copyCounted, State.endCopyBands, State.returnBuffers, State.modPlate, State.post,
    stopEngine_engine, stopEngine_queue]

/-- The record of a plate changed, under the id it is found by. -/
theorem plate?_modPlate_at {s : State} {id : Nat} {p : Plate} {f : Plate → Plate} (hf : ∀ p, (f p).id = p.id)
    (hp : s.plate? id = some p) : (s.modPlate id f).plate? id = some (f p) := by
  rw [plate?_modPlate hf, hp]
  simp

theorem copyCounted_plate? {s : State} {t : Taken} {p : Plate} (ht : s.engine.taken = some t) (hid : t.plate = p.id)
    (hp : s.plate? p.id = some p) : ∃ d, s.closeEpisodes.plate? p.id = some { p with damage := d }
      ∧ (s.copyCounted t p).plate? p.id = some { p with
        damage := d, completed := p.completed + 1
        bands := p.bands.map (Band.fetched (!decide (p.completed + 1 < p.copies))) } := by
  obtain ⟨d, hclose, hstop, _⟩ := stopEngine_taken_plate? ht hid hp
  have hbands := plate?_modPlate_at
    (f := fun q => { q with bands := q.bands.map (Band.fetched (!decide (p.completed + 1 < p.copies))) }) (fun _ => rfl) hstop
  exact ⟨d, hclose, plate?_modPlate_at (s := s.stopEngine.endCopyBands p (!decide (p.completed + 1 < p.copies)))
    (f := fun q => { q with completed := q.completed + 1 }) (fun _ => rfl) hbands⟩

/-- No band gives a buffer back as a copy that is not the last ends. -/
theorem fetchedBuffers_false (l : List Band) : l.filterMap (Band.fetchedBuffer false) = [] :=
  List.filterMap_eq_nil_iff.mpr fun b _ => if_neg fun h => absurd h.2 (by decide)

theorem fetched_false_eq : Band.fetched false = fun b => if b.state = .exposing then { b with state := .ready } else b := by
  funext b
  simp [Band.fetched]

theorem fetched_true_eq : Band.fetched true = fun b =>
    if b.state = .exposing then { b with state := .exposed, buffer := none } else b := by
  funext b
  simp [Band.fetched]

theorem fetchedBuffer_true_eq : Band.fetchedBuffer true = fun b => if b.state = .exposing then b.buffer else none := by
  funext b
  simp [Band.fetchedBuffer]

/-- CHANGE prepares the next copy (R117). -/
theorem endCopy_next {s : State} {t : Taken} {p : Plate} (ht : s.engine.taken = some t) (hid : t.plate = p.id)
    (hp : s.plate? p.id = some p) (hc : p.completed + 1 < p.copies) : let u := s.endCopy t p
    u.engine = { s.engine with
        state := .change .awaitFall, taken := some ⟨t.plate, t.copy + 1⟩, swath := 0, edgeSeen := false, fetchPos := 0
        running := true, urgent := true, fifo := [], watchdog := none
        read := s.engine.read.map fun r => { r with fate := .discard } }
    ∧ u.monitor = { s.monitor with
        activity := .idle, step := .none, power := ⟨.closed, .closed, .closed, .closed⟩, blind := .closed }
    ∧ u.marks = ⟨[], none, none, none⟩ ∧ u.pins = { s.pins with laser := none }
    ∧ u.link = (s.post (.copyDone p.id t.copy p.copies p.damage.length p.overflow)).link
    ∧ u.plate? p.id = (s.closeEpisodes.plate? p.id).map (fun x => { x with
        completed := p.completed + 1
        bands := p.bands.map fun b => if b.state = .exposing then { b with state := .ready } else b })
    ∧ u.table.queue = s.table.queue ∧ u.pool = s.pool ∧ u.segs = s.segs ∧ u.memory = s.memory := by
  intro u
  have hu : u = (s.copyCounted t p).withEngine ((s.copyCounted t p).engine.nextCopy t) := if_pos hc
  obtain ⟨hengine, hpins, hmonitor, hmarks, hlink, hqueue, hpool, hsegs, hmemory⟩ := copyCounted_parts s t p
  have hnext : (!decide (p.completed + 1 < p.copies)) = false := by simp [hc]
  obtain ⟨d, hclose, hplate⟩ := copyCounted_plate? ht hid hp
  rw [hnext, fetchedBuffers_false, List.append_nil] at hpool
  rw [hnext, fetched_false_eq] at hplate
  rw [hu]
  refine ⟨?_, hmonitor.trans (stopEngine_monitor ht), hmarks.trans rfl, hpins.trans ?_, hlink, ?_, hqueue, hpool, hsegs, hmemory⟩
  · rw [withEngine_engine, hengine]
    rfl
  · simp [State.stopEngine, State.laserOff]
  · rw [hclose]
    exact hplate

/-- The plate is DONE, out of the queue and told, and the engine IDLE (R118). -/
theorem endCopy_last {s : State} {t : Taken} {p : Plate} (ht : s.engine.taken = some t) (hid : t.plate = p.id)
    (hp : s.plate? p.id = some p) (hc : p.copies ≤ p.completed + 1) : ∃ u : State, s.endCopy t p = u.takeHead
    ∧ EngineStops s u
    ∧ u.link = ((s.post (.copyDone p.id t.copy p.copies p.damage.length p.overflow)).post
        (.plateDone p.id (p.completed + 1) p.damage.length p.overflow)).link
    ∧ u.plate? p.id = (s.closeEpisodes.plate? p.id).map (fun x => { x with
        state := .done, completed := p.completed + 1
        bands := p.bands.map fun b => if b.state = .exposing then { b with state := .exposed, buffer := none } else b })
    ∧ u.table.queue = s.table.queue.filter (fun q => decide (q ≠ p.id))
    ∧ u.pool.free = s.pool.free ++ p.bands.filterMap (fun b => if b.state = .exposing then b.buffer else none)
    ∧ u.segs = s.segs ∧ u.memory = s.memory := by
  obtain ⟨hengine, hpins, hmonitor, hmarks, hlink, hqueue, hpool, hsegs, hmemory⟩ := copyCounted_parts s t p
  have hlast : (!decide (p.completed + 1 < p.copies)) = true := by simp [hc]
  obtain ⟨d, hclose, hplate⟩ := copyCounted_plate? ht hid hp
  rw [hlast, fetchedBuffer_true_eq] at hpool
  rw [hlast, fetched_true_eq] at hplate
  refine ⟨_, (endCopy_eq s t p).trans (if_neg (Nat.not_lt.mpr hc)), ?_, ?_, ?_, ?_, ?_, ?_, ?_⟩
  · refine engineStops_of ht ?_ ?_ ?_ ?_
    · simpa [State.leaveQueue, State.modPlate, State.post] using hpins
    · simp [State.enterIdle, State.leaveQueue, State.modPlate, State.post, hengine, stopEngine_engine]
    · simpa [State.leaveQueue, State.modPlate, State.post] using hmonitor
    · simpa [State.leaveQueue, State.modPlate, State.post] using hmarks
  · simp [State.leaveQueue, State.modPlate, State.post, hlink]
  · rw [hclose]
    exact plate?_modPlate_at (s := s.copyCounted t p) (f := fun q => { q with state := .done }) (fun _ => rfl) hplate
  · simp [State.leaveQueue, State.modPlate, State.post, hqueue]
  · simp [State.leaveQueue, State.modPlate, State.post, hpool]
  · simpa [State.leaveQueue, State.modPlate, State.post] using hsegs
  · simpa [State.leaveQueue, State.modPlate, State.post] using hmemory

/-! ### INDEX -/

theorem index_does {s t : State} {ticks pulses : BitVec 24} (hr : s.pins.resetAsserted = false)
    (h : s.takeIndex ticks.toNat pulses.toNat = t) : Answers (.index ticks pulses) s t :=
  answers_event (f := fun s => s.takeIndex ticks.toNat pulses.toNat) rfl hr h

theorem indexExposing_eq {s : State} {t : Taken} {p : Plate} (ht : s.engine.taken = some t)
    (hp : s.plate? t.plate = some p) : s.indexExposing =
      if s.engine.edgeSeen then
        if s.engine.swath < p.swaths then (s.laserOff.withEngine s.engine.newRevolution).openGap else s.endCopy t p
      else s.drumFault .edgeMissing := by
  simp only [State.indexExposing, takenPlate?_eq ht hp]

theorem takeIndex_exposing {s : State} (ticks pulses : Nat) (h : s.engine.state = .exposing) :
    s.takeIndex ticks pulses = s.indexExposing := by
  simp only [State.takeIndex, h]

/-- Settles O43. -/
theorem indexTaken : Obligations.IndexTaken := by
  intro ticks pulses s hr
  refine ⟨fun h => index_does hr ?_, fun h => index_does hr ?_, fun h => ?_, fun k p hs ht hp => ?_⟩
  · rcases h with h | h | ⟨h, hd⟩ | h | h
    · simp only [State.takeIndex, h]
    · simp only [State.takeIndex, h]
    · simp only [State.takeIndex, h, hd]
      rfl
    · simp only [State.takeIndex, h]
    · simp only [State.takeIndex, h]
  · have henter : s.takeIndex ticks.toNat pulses.toNat = s.enterLeadIn := by
      rcases h with ⟨h, hd⟩ | h
      · simp only [State.takeIndex, h, hd]
        rfl
      · simp only [State.takeIndex, h]
    rw [henter]
    rfl
  · intro t
    refine ⟨index_does hr ?_, ?_, by simp [t], by simp [t], by simp [t], by simp [t]⟩
    · have henter : s.takeIndex ticks.toNat pulses.toNat = s.enterExposing ticks.toNat pulses.toNat := by
        simp only [State.takeIndex, h]
      rw [henter]
      simp [State.enterExposing, Engine.newRevolution, t]
    · simp [t]
  · have hid := (plate?_some hp).1
    have htake := (takeIndex_exposing ticks.toNat pulses.toNat hs).trans (indexExposing_eq ht hp)
    refine ⟨fun he hsw => index_does hr (htake.trans ?_), fun he hsw => ?_⟩
    · rw [if_pos he, Plate.swaths, if_pos hsw]
      rfl
    · intro told
      have hend : s.takeIndex ticks.toNat pulses.toNat = s.endCopy k p := by
        rw [htake, if_pos he, Plate.swaths, if_neg (Nat.not_lt.mpr hsw)]
      refine ⟨fun hc => ⟨_, index_does hr hend, endCopy_next ht hid.symm (hid ▸ hp) hc⟩, fun hc => ?_⟩
      obtain ⟨u, hu, hstops, hlink, hrest⟩ := endCopy_last ht hid.symm (hid ▸ hp) hc
      exact ⟨u, index_does hr (hend.trans hu), hstops, hlink, hrest⟩

end Sys2Proof.Machine

/-! Drum faults and the changes of DRUM READY (O45). -/

namespace Sys2Proof.Machine

/-! ### The records of episodes that close -/

theorem DamageRecord.closed_closed (top v : Nat) (r : DamageRecord) : (r.closed top v).closed top v = r.closed top v := by
  have h : min top (max (min top (max r.last v)) v) = min top (max r.last v) := by omega
  simp [DamageRecord.closed, h]

theorem closeIn_get (top v : Nat) (d : List DamageRecord) (e : Episode) (i : Nat) : (closeIn top v d e)[i]? =
    (d[i]?).map fun r => if e = .opened (some i) then r.closed top v else r := by
  unfold closeIn
  split
  next j =>
    rw [List.getElem?_modify]
    by_cases h : j = i <;> simp [h]
  · simp
  · simp

/-- The records as several episodes close: those linked to one of them are closed, once. -/
theorem closeAll_get (top v : Nat) (l : List Episode) (d : List DamageRecord) (i : Nat) :
    (l.foldl (closeIn top v) d)[i]? = (d[i]?).map fun r => if .opened (some i) ∈ l then r.closed top v else r := by
  induction l generalizing d with
  | nil => simp
  | cons e l ih =>
    rw [List.foldl_cons, ih, closeIn_get, Option.map_map]
    refine Option.map_congr fun r _ => ?_
    by_cases he : e = .opened (some i)
    · by_cases hl : Episode.opened (some i) ∈ l <;> simp [he, hl, DamageRecord.closed_closed]
    · have he' : ¬Episode.opened (some i) = e := fun h => he h.symm
      simp [he, he']

theorem mem_episodes_iff (m : Monitor) (e : Episode) : e ∈ m.episodes ↔ (∃ k : Fin 4, m.power.get k = e) ∨ m.blind = e := by
  have hbeams : (∃ k : Fin 4, m.power.get k = e) ↔ m.power.b0 = e ∨ m.power.b1 = e ∨ m.power.b2 = e ∨ m.power.b3 = e := by
    simp [Fin.exists_fin_succ, PerBeam.get]
  rw [hbeams]
  simp only [Monitor.episodes, List.mem_cons, List.not_mem_nil, or_false, eq_comm (a := e)]
  tauto

/-! ### A drum fault -/

theorem addRecord_other {s : State} {id id' : Nat} (r : DamageRecord) (h : id' ≠ id) :
    (s.addRecord id r).plate? id' = s.plate? id' := by
  have hmod (f : Plate → Plate) (hf : ∀ p, (f p).id = p.id) : (s.modPlate id f).plate? id' = s.plate? id' := by
    rw [plate?_modPlate hf]
    simp [h]
  unfold State.addRecord
  split
  · exact (plate?_of_table (s := s.modPlate id _) rfl _).trans (hmod _ fun _ => rfl)
  · exact hmod _ fun _ => rfl

/-- The state as a drum fault is recorded and told (R122), before the plate takes its outcome. -/
def State.faultTold (s : State) (t : Taken) (p : Plate) (cause : DrumCause) : State :=
  (s.stopEngine.addRecord p.id (drumRecordOf p t.copy s.engine.swath)).post
    (.drumFault p.id t.copy s.engine.swath cause (decide (t.copy = p.copies)))

theorem drumFault_eq {s : State} {t : Taken} {p : Plate} (cause : DrumCause) (ht : s.engine.taken = some t)
    (hp : s.plate? t.plate = some p) : s.drumFault cause =
      (((s.faultTold t p cause).faultPlate p (decide (t.copy = p.copies))).enterIdle).takeHead := by
  simp only [State.drumFault, takenPlate?_eq ht hp]
  rfl

theorem faultTold_parts (s : State) (t : Taken) (p : Plate) (cause : DrumCause) :
    (s.faultTold t p cause).pins = s.stopEngine.pins ∧ (s.faultTold t p cause).engine = s.engine.stop
    ∧ (s.faultTold t p cause).monitor = s.stopEngine.monitor ∧ (s.faultTold t p cause).marks = s.stopEngine.marks
    ∧ (s.faultTold t p cause).segs = s.segs ∧ (s.faultTold t p cause).screens = s.screens
    ∧ (s.faultTold t p cause).feed = s.feed ∧ (s.faultTold t p cause).arbiter = s.arbiter
    ∧ (s.faultTold t p cause).pool = s.pool ∧ (s.faultTold t p cause).table.queue = s.table.queue
    ∧ (s.faultTold t p cause).decoder = s.decoder ∧ (s.faultTold t p cause).screener = s.screener
    ∧ (s.faultTold t p cause).memory = s.memory ∧ (s.faultTold t p cause).stamps = s.stamps := by
  refine ⟨?_, ?_, ?_, ?_, ?_, ?_, ?_, ?_, ?_, ?_, ?_, ?_, ?_, ?_⟩
  all_goals simp [State.faultTold, stopEngine_engine, addRecord_queue, stopEngine_queue]

/-- The record of the plate taken as the fault is told: its episodes closed, and the DRUM record made. -/
theorem faultTold_plate? {s : State} {t : Taken} {p : Plate} (cause : DrumCause) (ht : s.engine.taken = some t)
    (hid : t.plate = p.id) (hp : s.plate? p.id = some p) : ∃ d, s.closeEpisodes.plate? p.id = some { p with damage := d }
      ∧ d.length = p.damage.length
      ∧ (s.faultTold t p cause).plate? p.id =
        some (({ p with damage := d } : Plate).withRecord (drumRecordOf p t.copy s.engine.swath))
      ∧ (s.faultTold t p cause).link = ((if p.damage.length < 64 then
          s.post (.damage p.id p.damage.length (drumRecordOf p t.copy s.engine.swath)) else s).post
            (.drumFault p.id t.copy s.engine.swath cause (decide (t.copy = p.copies)))).link := by
  obtain ⟨d, hclose, hstop, hlen⟩ := stopEngine_taken_plate? ht hid hp
  refine ⟨d, hclose, hlen, (plate?_of_table (s := s.stopEngine.addRecord p.id _) (by simp [State.faultTold]) _).trans
    (addRecord_plate? (p := { p with damage := d }) hstop _), ?_⟩
  have hlink := addRecord_link (p := { p with damage := d }) hstop (drumRecordOf p t.copy s.engine.swath)
  simp only [State.faultTold, State.post, withLink_link]
  rw [hlink]
  simp only [hlen, stopEngine_frame]
  split_ifs <;> rfl

theorem faultTold_other {s : State} {t : Taken} {p : Plate} (cause : DrumCause) (ht : s.engine.taken = some t)
    (hid : t.plate = p.id) {id : Nat} (h : id ≠ p.id) : (s.faultTold t p cause).plate? id = s.plate? id :=
  (plate?_of_table (s := s.stopEngine.addRecord p.id (drumRecordOf p t.copy s.engine.swath)) (by simp [State.faultTold]) _).trans
    ((addRecord_other _ h).trans (stopEngine_other_plate? ht (by rw [hid]; exact h)))

/-- What a drum fault leaves, but for the plate taken next. -/
theorem drumFault_does {s : State} {t : Taken} {p : Plate} (cause : DrumCause) (ht : s.engine.taken = some t)
    (hp : s.plate? t.plate = some p) :
    let final := t.copy = p.copies
    let first := min (4 * s.engine.swath) (p.height - 1)
    let record : DamageRecord := ⟨.drum, t.copy, first / 256, first, p.height - 1, none, none, none, none, none⟩
    let stored := p.damage.length < 64
    let told := (if stored then s.post (.damage p.id p.damage.length record) else s).post
      (.drumFault p.id t.copy s.engine.swath cause (decide final))
    ∃ u : State, s.drumFault cause = u.takeHead ∧ EngineStops s u
      ∧ (u.plate? p.id).map Plate.damage
          = (s.closeEpisodes.plate? p.id).map (fun x => if stored then x.damage ++ [record] else x.damage)
      ∧ (u.plate? p.id).map Plate.overflow = some (if stored then p.overflow else min (p.overflow + 1) 65535)
      ∧ (¬final →
        (u.plate? p.id).map (fun x => { x with damage := p.damage, overflow := p.overflow }) = some { p with
            state := .loading, authorised := false
            bands := p.bands.map fun b => { b with state := if b.state = .exposing then .ready else b.state } }
          ∧ u.table.queue = s.table.queue ∧ u.pool = s.pool ∧ u.segs = s.segs ∧ u.screens = s.screens
          ∧ u.feed = s.feed ∧ u.link = told.link)
      ∧ (final → PlateEnds s u p .faulted 0 ∧ u.link = (told.tellInterrupted fun h => decide (h.plate = p.id)).link)
      ∧ u.feed.counters = s.feed.counters ∧ u.decoder = s.decoder ∧ u.screener = s.screener ∧ u.memory = s.memory
      ∧ u.stamps = s.stamps := by
  intro final first record stored told
  have hid := (plate?_some hp).1
  have hself : s.plate? p.id = some p := hid ▸ hp
  obtain ⟨d, hclose, hlen, hplate, hlink⟩ := faultTold_plate? cause ht hid.symm hself
  obtain ⟨hpins, hengine, hmonitor, hmarks, hsegs, hscreens, hfeed, harbiter, hpool, hqueue, hdec, hscr, hmemory, hstamps⟩ :=
    faultTold_parts s t p cause
  let y := s.faultTold t p cause
  have hrecord : drumRecordOf p t.copy s.engine.swath = record := rfl
  rw [hrecord] at hplate hlink
  have hdamage : (({ p with damage := d } : Plate).withRecord record).damage = if stored then d ++ [record] else d := by
    simp [Plate.withRecord, hlen, stored]
  have hoverflow : (({ p with damage := d } : Plate).withRecord record).overflow =
      if stored then p.overflow else min (p.overflow + 1) 65535 := by
    by_cases h : p.damage.length < 64
    · simp [Plate.withRecord, hlen, stored, h, Nat.not_le.mpr h]
    · simp [Plate.withRecord, hlen, stored, h, Nat.le_of_not_lt h]
  have hstops {u : State} (h1 : u.pins = y.pins) (h2 : u.engine = y.enterIdle.engine) (h3 : u.monitor = y.monitor)
      (h4 : u.marks = y.marks) : EngineStops s u := by
    refine engineStops_of ht (h1.trans hpins) (h2.trans ?_) (h3.trans hmonitor) (h4.trans hmarks)
    simp [State.enterIdle, y, hengine, stopEngine_engine]
  rw [drumFault_eq cause ht hp]
  by_cases hf : t.copy = p.copies
  · have hfault : (y.faultPlate p (decide (t.copy = p.copies))) = y.endPlate p .faulted false := if_pos (by simp [hf])
    have hu : (y.endPlate p .faulted false).enterIdle.plate? p.id = _ := endPlate_plate? y p .faulted false p.id
    rw [hplate] at hu
    refine ⟨(y.endPlate p .faulted false).enterIdle, by rw [← hfault], ?_, ?_, ?_, fun h => absurd hf h, fun _ => ⟨?_, ?_⟩,
      ?_, ?_, ?_, ?_, ?_⟩
    · exact hstops (by simp) (by simp [State.enterIdle]) (by simp) (by simp)
    · rw [hu, hclose]
      simpa using hdamage
    · rw [hu]
      simpa using hoverflow
    · exact endPlate_ends .faulted false hsegs hscreens hfeed harbiter hpool hqueue ⟨_, _, hplate⟩ fun id h =>
        faultTold_other cause ht hid.symm h
    · have htold : told.feed = s.feed := by
        simp only [told]
        split_ifs <;> rfl
      refine (endPlate_link y p .faulted false).trans (tellInterrupted_link ?_ hlink _)
      exact congrArg Feed.intake (hfeed.trans htold.symm)
    · exact (endPlate_counters y p .faulted false).trans (by rw [hfeed])
    · simpa using hdec
    · simpa using hscr
    · simpa using hmemory
    · simpa using hstamps
  · have hfault : (y.faultPlate p (decide (t.copy = p.copies))) = y.modPlate p.id fun q =>
        { q with state := .loading, authorised := false, bands := q.bands.map Band.faulted } := if_neg (by simp [hf])
    have hu := plate?_modPlate_at (s := y) (f := fun q =>
      { q with state := .loading, authorised := false, bands := q.bands.map Band.faulted }) (fun _ => rfl) hplate
    refine ⟨(y.modPlate p.id fun q =>
        { q with state := .loading, authorised := false, bands := q.bands.map Band.faulted }).enterIdle, by rw [← hfault], ?_, ?_,
      ?_, fun _ => ⟨?_, hqueue, hpool, hsegs, hscreens, hfeed, hlink⟩, fun h => absurd h hf, by rw [← hfeed]; rfl, hdec, hscr,
      hmemory, hstamps⟩
    · exact hstops rfl rfl rfl rfl
    · refine (congrArg (Option.map Plate.damage) hu).trans ?_
      rw [hclose]
      simpa using hdamage
    · exact (congrArg (Option.map Plate.overflow) hu).trans (by simpa using hoverflow)
    · refine (congrArg (Option.map fun x : Plate => { x with damage := p.damage, overflow := p.overflow }) hu).trans ?_
      rfl

/-! ### The changes of DRUM READY -/

theorem drumReadyFall_does {s t : State} (hr : s.pins.resetAsserted = false)
    (h : (s.withPins { s.pins with drumReady := false }).readyFalls = t) : Answers .drumReadyFall s t := by
  rw [← h]
  exact event_taken (s.withPins { s.pins with drumReady := false }) State.readyFalls hr

theorem drumReadyRise_does {s t : State} (hr : s.pins.resetAsserted = false)
    (h : (s.withPins { s.pins with drumReady := true }).readyRises = t) : Answers .drumReadyRise s t := by
  rw [← h]
  exact event_taken (s.withPins { s.pins with drumReady := true }) State.readyRises hr

theorem readyFalls_fault {s : State} (h : s.engine.state = .leadIn ∨ s.engine.state = .exposing) :
    s.readyFalls = s.drumFault .readyLost := by
  rcases h with h | h <;> simp only [State.readyFalls, h]

theorem watchdogArmed_iff (s : State) : s.watchdogArmed = true ↔
    s.engine.watchdog ≠ none ∧ (s.engine.state = .leadIn ∨ s.engine.state = .exposing) := by
  simp [State.watchdogArmed, Option.isSome_iff_ne_none]

/-- Settles O45. -/
theorem drumFaults : Obligations.DrumFaults := by
  refine ⟨fun s c k p hr ht hp hc => ?_, fun s k p ht hp => ?_, fun s hr => ?_⟩
  · intro final cause first record stored told
    rcases hc with ⟨hs, rfl | ⟨rfl, hw⟩⟩ | ⟨hs, he, a, b, rfl⟩
    · let low := s.withPins { s.pins with drumReady := false }
      obtain ⟨u, hu, hstops, hdamage, hoverflow, hloading, hfaulted, hrest⟩ := drumFault_does (s := low) .readyLost ht hp
      let lowTold := (if stored then low.post (.damage p.id p.damage.length record) else low).post
        (.drumFault p.id k.copy s.engine.swath .readyLost (decide final))
      have htold : lowTold.link = told.link ∧ lowTold.feed.intake = told.feed.intake := by
        simp only [lowTold, told]
        split_ifs <;> exact ⟨rfl, rfl⟩
      refine ⟨u, drumReadyFall_does hr ((readyFalls_fault (s := low) hs).trans hu), hstops, ?_, hoverflow, fun h => ?_,
        fun h => ?_, hrest⟩
      · rw [hdamage, closeEpisodes_withPins]
        rfl
      · obtain ⟨hplate, hqueue, hpool, hsegs, hscreens, hfeed, hlink⟩ := hloading h
        exact ⟨hplate, hqueue, hpool, hsegs, hscreens, hfeed, hlink.trans htold.1⟩
      · obtain ⟨hends, hlink⟩ := hfaulted h
        exact ⟨hends, hlink.trans (tellInterrupted_link (u := lowTold) htold.2 htold.1 _)⟩
    · obtain ⟨u, hu, hrest⟩ := drumFault_does .watchdog ht hp
      exact ⟨u, answers_eventWhen (due := s.watchdogArmed) (f := fun s => s.drumFault .watchdog) rfl hr
        ((watchdogArmed_iff s).mpr ⟨hw, hs⟩) hu, hrest⟩
    · obtain ⟨u, hu, hrest⟩ := drumFault_does .edgeMissing ht hp
      refine ⟨u, index_does hr ((takeIndex_exposing _ _ hs).trans ((indexExposing_eq ht hp).trans ?_)), hrest⟩
      rw [he]
      exact hu
  · intro linked
    have hclose := closeEpisodes_plate? ht k.plate
    rw [hp] at hclose
    simp only [Option.map_some, if_true] at hclose
    refine ⟨_, hclose, rfl, closeAll_length _ _ _ _, fun i r hi => ?_⟩
    have hlinked : Episode.opened (some i) ∈ s.monitor.episodes ↔ linked i := mem_episodes_iff _ _
    have hget := closeAll_get (p.height - 1) (4 * s.engine.swath - 1) s.monitor.episodes p.damage i
    rw [hi] at hget
    refine ⟨fun hl => ?_, fun hl => ?_⟩
    · rw [hget]
      simp only [Option.map_some, hlinked.mpr hl, if_true]
      rfl
    · rw [hget]
      simp only [Option.map_some, mt hlinked.mp hl, if_false]
  · intro low high
    refine ⟨fun h => drumReadyFall_does hr ?_, fun h => drumReadyFall_does hr ?_, fun h => drumReadyRise_does hr ?_,
      fun h => drumReadyRise_does hr ?_, fun h => ?_⟩
    · rcases h with h | h <;> simp only [State.readyFalls, withPins_engine, h] <;> rfl
    · rcases h with h | h | h | h <;> simp only [State.readyFalls, withPins_engine, h] <;> rfl
    · simp only [State.readyRises, withPins_engine, h]
      rfl
    · unfold State.readyRises
      split
      next hs => exact absurd hs h
      all_goals rfl
    · refine ignored_eventWhen (due := s.watchdogArmed) (f := fun s => s.drumFault .watchdog) rfl ?_
      rw [Bool.eq_false_iff, Ne, watchdogArmed_iff]
      tauto

end Sys2Proof.Machine

/-! IMAGE EDGE (O44): the swath due is exposed or is an underrun, and a step still running is cut. -/

namespace Sys2Proof.Machine

/-! ### A step cut -/

theorem blind_judged_step (s : State) (o : RefOutcome) (n : Nat) : (s.judgeRef o n).monitor.step = s.monitor.step := by
  unfold State.judgeRef
  split
  · split
    · simp [State.blindSuccess]
    · unfold State.blindFailure
      dsimp only
      split
      · simp
      · simp
  · rfl

/-- A step of the exposure that is cut leaves none running. -/
theorem cutStep_step {s : State} (h : s.monitor.activity = .exposure) (ticks pulses : Nat) :
    (s.cutStep ticks pulses).monitor.step = .none := by
  have hscan : ¬s.monitor.activity.scanning = true := by
    rw [h]
    decide
  unfold State.cutStep
  cases hs : s.monitor.step with
  | none => exact hs
  | ref =>
    simp only [State.endRef]
    rw [if_neg hscan, blind_judged_step]
    rfl
  | beam k =>
    cases hv : s.monitor.valid? with
    | none => simp [State.endBeam, hv, Monitor.endStep]
    | some x =>
      have href : s.monitor.reference = .valid x.1 x.2 := by
        unfold Monitor.valid? at hv
        split at hv
        next n gate heq =>
          obtain rfl := Option.some.inj hv
          exact heq
        all_goals cases hv
      exact (endBeam_monitor href ticks pulses none).2.2.2 h

/-! ### The lines of a swath -/

theorem swathLines_contains (sw l : Nat) : (swathLines sw).contains l = decide (4 * sw ≤ l ∧ l ≤ 4 * sw + 3) := by
  rw [Bool.eq_iff_iff]
  simp [swathLines]
  omega

theorem dropSwath_eq (e : Engine) (sw : Nat) : e.dropSwath sw = { e with
    fifo := e.fifo.filter fun l => decide (¬(4 * sw ≤ l.line ∧ l.line ≤ 4 * sw + 3))
    read := e.read.map fun r =>
      if (4 * sw ≤ r.line ∧ r.line ≤ 4 * sw + 3) ∧ r.fate = .join then { r with fate := .drop } else r } := by
  simp only [Engine.dropSwath, swathLines_contains, decide_eq_true_eq, decide_not]

/-! ### The lines skipped -/

/-- The engine goes on as `e`, but that its fetch may have ended. -/
def Engine.Ran (e' e : Engine) : Prop := ∃ running urgent, e' = { e with running := running, urgent := urgent }

theorem Engine.Ran.refl (e : Engine) : e.Ran e := ⟨e.running, e.urgent, rfl⟩

theorem Engine.Ran.trans {a b c : Engine} (h : a.Ran b) (h' : b.Ran c) : a.Ran c := by
  obtain ⟨r, u, rfl⟩ := h
  obtain ⟨r', u', rfl⟩ := h'
  exact ⟨r, u, rfl⟩

theorem passLine_ran (s : State) (plate copy line : Nat) : (s.passLine plate copy line).engine.Ran s.engine := by
  rcases passLine_engine s plate copy line with h | h
  · exact ⟨_, _, h⟩
  · exact ⟨_, _, h⟩

theorem testUrgency_ran (e : Engine) : e.testUrgency.Ran e := ⟨_, _, rfl⟩

/-- Line `l` passed by the skip, with the plate as it was taken (R115). -/
def State.pass (k : Taken) (height : Nat) (x : State) (l : Nat) : State :=
  (if l % 256 = 0 ∧ l < height then x.decideBand (l / 256) else x).passLine k.plate k.copy l

/-- The state works on the plate taken, its record still like `p`. -/
def State.WorksOn (x : State) (k : Taken) (p : Plate) : Prop :=
  x.engine.taken = some k ∧ ∃ q, x.plate? k.plate = some q ∧ q.Like p

theorem State.WorksOn.pass {x : State} {k : Taken} {p : Plate} (h : x.WorksOn k p) (l : Nat) :
    x.skipLine l = x.pass k p.height l ∧ (x.pass k p.height l).WorksOn k p ∧ (x.pass k p.height l).engine.Ran x.engine := by
  obtain ⟨ht, q, hq, hlike⟩ := h
  have hdecided : (if l % 256 = 0 ∧ l < p.height then x.decideBand (l / 256) else x).engine = x.engine
      ∧ ∃ r, (if l % 256 = 0 ∧ l < p.height then x.decideBand (l / 256) else x).plate? k.plate = some r ∧ r.Like p := by
    split_ifs
    · obtain ⟨r, hr, hrq⟩ := decideBand_like (l / 256) ht hq
      exact ⟨by simp, r, hr, hrq.trans hlike⟩
    · exact ⟨rfl, q, hq, hlike⟩
  obtain ⟨hengine, r, hr, hrlike⟩ := hdecided
  have htaken := (congrArg Engine.taken hengine).trans ht
  have hran := passLine_ran (if l % 256 = 0 ∧ l < p.height then x.decideBand (l / 256) else x) k.plate k.copy l
  rw [hengine] at hran
  refine ⟨?_, ⟨?_, ?_⟩, hran⟩
  · unfold State.skipLine
    simp only [takenPlate?_eq ht hq, hlike.height, takenPlate?_eq htaken hr]
    rfl
  · obtain ⟨running, urgent, he⟩ := hran
    exact (congrArg Engine.taken he).trans ht
  · obtain ⟨r', hr', hlike'⟩ := passLine_like k.plate k.copy l htaken hr
    exact ⟨r', hr', hlike'.trans hrlike⟩

theorem State.WorksOn.skip {x : State} {k : Taken} {p : Plate} (h : x.WorksOn k p) (l : List Nat) :
    l.foldl State.skipLine x = l.foldl (State.pass k p.height) x ∧ (l.foldl (State.pass k p.height) x).WorksOn k p
      ∧ (l.foldl (State.pass k p.height) x).engine.Ran x.engine := by
  induction l generalizing x with
  | nil => exact ⟨rfl, h, .refl _⟩
  | cons a l ih =>
    obtain ⟨hstep, hworks, hran⟩ := h.pass a
    obtain ⟨hfold, hworks', hran'⟩ := ih hworks
    rw [List.foldl_cons, List.foldl_cons, hstep]
    exact ⟨hfold, hworks', hran'.trans hran⟩

/-- The skip to the line after swath `sw`, with the plate as it was taken. -/
theorem State.WorksOn.skipTo {x : State} {k : Taken} {p : Plate} (h : x.WorksOn k p) (sw : Nat) :
    x.skipTo sw = (if x.engine.fetchPos ≤ 4 * sw + 3 then
        (List.range' x.engine.fetchPos (4 * sw + 4 - x.engine.fetchPos)).foldl (State.pass k p.height)
          (x.withEngine { x.engine with fetchPos := 4 * sw + 4 })
      else x)
    ∧ (x.skipTo sw).WorksOn k p
    ∧ (x.skipTo sw).engine.Ran { x.engine with fetchPos := max x.engine.fetchPos (4 * sw + 4) } := by
  have hmoved : (x.withEngine { x.engine with fetchPos := 4 * sw + 4 }).WorksOn k p := h
  obtain ⟨hfold, hworks, hran⟩ := hmoved.skip (List.range' x.engine.fetchPos (4 * sw + 4 - x.engine.fetchPos))
  have hskip : x.skipTo sw = if x.engine.fetchPos ≤ 4 * sw + 3 then
      (List.range' x.engine.fetchPos (4 * sw + 4 - x.engine.fetchPos)).foldl State.skipLine
        (x.withEngine { x.engine with fetchPos := 4 * sw + 4 })
      else x := rfl
  rw [hfold] at hskip
  refine ⟨hskip, ?_⟩
  rw [hskip]
  split_ifs with hpos
  · rw [Nat.max_eq_right (by omega)]
    exact ⟨hworks, hran⟩
  · rw [Nat.max_eq_left (by omega)]
    exact ⟨h, .refl _⟩

/-! ### The swath due -/

/-- A swath handed over, and the step cut: what both ways of a swath leave. -/
theorem swath_leaves {s u : State} {k : Taken} {sw ticks pulses : Nat} (hengine : u.engine.state = .exposing)
    (hseen : u.engine.edgeSeen = true) (htaken : u.engine.taken = some k) (hdog : u.engine.watchdog = s.engine.watchdog)
    (hmonitor : u.monitor = s.monitor) (hmemory : u.memory = s.memory) (hstamps : u.stamps = s.stamps) :
    let t := (u.withEngine { u.engine with swath := sw + 1 }).cutStep ticks pulses
    t.engine.swath = sw + 1 ∧ t.engine.edgeSeen = true ∧ t.engine.state = .exposing ∧ t.engine.taken = some k
      ∧ t.engine.watchdog = s.engine.watchdog ∧ (s.monitor.activity = .exposure → t.monitor.step = .none)
      ∧ t.memory = s.memory ∧ t.stamps = s.stamps := by
  intro t
  refine ⟨by simp [t], by simpa [t] using hseen, by simpa [t] using hengine, by simpa [t] using htaken,
    by simpa [t] using hdog, fun h => ?_, by simpa [t] using hmemory, by simpa [t] using hstamps⟩
  exact cutStep_step (by rw [withEngine_monitor, hmonitor, h]) _ _

theorem takeSwath_due {s : State} {t : Taken} {p : Plate} (h : s.engine.holdsSwath s.engine.swath = true) :
    s.takeSwath t p = (s.exposeSwath t p s.engine.swath).withEngine
      { (s.exposeSwath t p s.engine.swath).engine with swath := s.engine.swath + 1 } := by
  simp only [State.takeSwath]
  rw [if_pos h]

theorem takeSwath_underrun {s : State} {t : Taken} {p : Plate} (h : ¬s.engine.holdsSwath s.engine.swath = true) :
    s.takeSwath t p = (s.underrunSwath s.engine.swath).withEngine
      { (s.underrunSwath s.engine.swath).engine with swath := s.engine.swath + 1 } := by
  simp only [State.takeSwath]
  rw [if_neg h]

theorem imageEdge_does {s t : State} {ticks pulses : BitVec 24} (hr : s.pins.resetAsserted = false)
    (h : s.takeEdge ticks.toNat pulses.toNat = t) : Answers (.imageEdge ticks pulses) s t :=
  answers_event (f := fun s => s.takeEdge ticks.toNat pulses.toNat) rfl hr h

theorem takeEdge_exposing {s : State} {k : Taken} {p : Plate} (ticks pulses : Nat) (he : s.engine.edgeSeen = false)
    (hs : s.engine.state = .exposing) (ht : s.engine.taken = some k) (hp : s.plate? k.plate = some p) :
    s.takeEdge ticks pulses =
      ((s.withEngine { s.engine with edgeSeen := true }).takeSwath k p).cutStep ticks pulses := by
  simp only [State.takeEdge, he, hs, State.edgeExposing, takenPlate?_eq ht hp]
  rfl

/-- Settles O44. -/
theorem imageEdge : Obligations.ImageEdge := by
  intro ticks pulses s hr
  refine ⟨fun h => imageEdge_does hr ?_, fun he hs => imageEdge_does hr ?_, ⟨fun h => ?_, fun h => ?_, fun k h => ?_⟩,
    fun k p he hs ht hp => ?_⟩
  · rcases h with h | ⟨h1, h2⟩
    · exact if_pos h
    · unfold State.takeEdge
      split_ifs
      · rfl
      · cases hs : s.engine.state with
        | leadIn => exact absurd hs h1
        | exposing => exact absurd hs h2
        | idle => rfl
        | waitLead => rfl
        | waitDrum => rfl
        | change x => rfl
  · simp only [State.takeEdge, he, hs]
    rfl
  · simp only [State.cutStep, h]
  · simp only [State.cutStep, h]
  · simp only [State.cutStep, h]
  · intro sw due next after
    have htake := takeEdge_exposing ticks.toNat pulses.toNat he hs ht hp
    let seen := s.withEngine { s.engine with edgeSeen := true }
    refine ⟨fun hdue => ?_, fun hdue => ?_⟩
    · intro left u
      have hswath : seen.takeSwath k p = u.withEngine { u.engine with swath := sw + 1 } :=
        takeSwath_due (decide_eq_true hdue)
      have hengine : u.engine = left.testUrgency := by simp [u]
      refine ⟨imageEdge_does hr (htake.trans (by rw [hswath])), ?_, ?_, ?_, ?_, ?_⟩
      · exact swath_leaves (by rw [hengine]; exact hs) (by rw [hengine]; rfl) (by rw [hengine]; exact ht)
          (by rw [hengine]; rfl) (by simp [u]) (by simp [u]) (by simp [u])
      · simp [next, hengine, left, Engine.testUrgency]
      · simp [next, hengine, left, Engine.testUrgency]
      · simp [next]
      · simp [next, u]
    · intro inSwath dropped pos pass skipped tested
      have hdropped : seen.withEngine (seen.engine.dropSwath sw) = dropped := by
        rw [dropSwath_eq]
        rfl
      have hworks : dropped.WorksOn k p := ⟨ht, p, hp, .refl p⟩
      obtain ⟨hskip, hworks', hran⟩ := hworks.skipTo sw
      have hskipped : dropped.skipTo sw = skipped := hskip
      rw [hskipped] at hworks' hran
      obtain ⟨htaken, q, hq, hlike⟩ := hworks'
      have hframe : skipped.monitor = s.monitor ∧ skipped.memory = s.memory ∧ skipped.stamps = s.stamps := by
        rw [← hskipped]
        simp [dropped]
      obtain ⟨running, urgent, htested⟩ : tested.engine.Ran
          { dropped.engine with fetchPos := max s.engine.fetchPos (4 * sw + 4) } := (testUrgency_ran _).trans hran
      refine ⟨q, hq, hlike.height, hlike.width, hlike.stamps, ?_⟩
      intro u
      have hunder : seen.underrunSwath sw = u := by
        have hfound : tested.takenPlate? = some (k, q) := takenPlate?_eq (by rw [htested]; exact ht) hq
        simp only [State.underrunSwath, hdropped, hskipped]
        have : (skipped.withEngine skipped.engine.testUrgency).takenPlate? = some (k, q) := hfound
        rw [this]
        simp only [u, whiteBytes, Plate.lineBytes, hlike.width]
        rfl
      have hswath : seen.takeSwath k p = u.withEngine { u.engine with swath := sw + 1 } := by
        rw [← hunder]
        exact takeSwath_underrun fun h => hdue (of_decide_eq_true h)
      have hengine : u.engine = tested.engine := by simp [u]
      have hgoes := hengine.trans htested
      refine ⟨imageEdge_does hr (htake.trans (by rw [hswath])), ?_, ?_, ?_, by simp [next]⟩
      · exact swath_leaves ((congrArg Engine.state hgoes).trans hs) ((congrArg Engine.edgeSeen hgoes).trans rfl)
          ((congrArg Engine.taken hgoes).trans ht) ((congrArg Engine.watchdog hgoes).trans rfl) (by simpa [u, tested] using hframe.1)
          (by simpa [u, tested] using hframe.2.1) (by simpa [u, tested] using hframe.2.2)
      · simp only [next, cutStep_frame, withEngine_engine]
        exact (congrArg Engine.fifo hgoes).trans rfl
      · simp only [next, cutStep_frame, withEngine_engine]
        exact (congrArg Engine.fetchPos hgoes).trans rfl

end Sys2Proof.Machine

/-! The laws of O59 and O60 as one development: `Core` is `State.Sound` without the exposure fetch, `Steady` says that a change
keeps every law in the middle of a command, and `Calm` is a change beside the plate table, the pool and the engine. -/

namespace Sys2Proof.Machine

/-! ### The laws in parts -/

/-- The laws of `State.Sound` that do not speak of the exposure fetch. -/
structure State.Core (s : State) : Prop where
  queue : s.QueueLaw
  segs : s.SegmentLaw
  bands : s.BandLaw
  renders : s.RenderLaw
  buffers : s.BufferLaw
  reservation : s.ReservationLaw

/-- A band that the exposure fetch has reached has been decided in this copy; `more` says that copies follow. -/
def Band.Decided (more : Prop) (b : Band) : Prop :=
  b.state = .blank ∨ b.state = .starved ∨ b.state = .exposing ∨ b.state = .exposed ∨ b.state = .ready ∧ more

/-- The bands of the plate taken that begin before line `n` have been decided. -/
def State.DecidedTo (s : State) (n : Nat) : Prop :=
  ∀ t, s.engine.taken = some t → ∃ p, s.plate? t.plate = some p ∧ t.copy = p.completed + 1
    ∧ ∀ i b, p.bands[i]? = some b → 256 * i < n → b.Decided (t.copy < p.copies)

/-- What the fetch's law says of the engine alone. -/
def Engine.FetchOk (e : Engine) : Prop :=
  (∀ t, e.taken = some t → (e.state = .waitLead → e.fetchPos = 0 ∧ e.running = false) ∧ 4 * e.swath ≤ e.fetchPos
      ∧ ∀ l ∈ e.fifo, l.line < e.fetchPos)
    ∧ ∀ r, e.read = some r → r.fate = .discard ∨ e.taken = some ⟨r.plate, r.copy⟩ ∧ r.line < e.fetchPos

theorem fetchLaw_iff (s : State) : s.FetchLaw ↔ s.engine.FetchOk ∧ s.DecidedTo s.engine.fetchPos := by
  constructor
  · rintro ⟨htaken, hread⟩
    refine ⟨⟨fun t ht => ?_, hread⟩, fun t ht => ?_⟩
    · obtain ⟨hlead, hswath, hfifo, -⟩ := htaken t ht
      exact ⟨hlead, hswath, hfifo⟩
    · obtain ⟨-, -, -, hdecided⟩ := htaken t ht
      exact hdecided
  · rintro ⟨⟨htaken, hread⟩, hdecided⟩
    refine ⟨fun t ht => ?_, hread⟩
    obtain ⟨hlead, hswath, hfifo⟩ := htaken t ht
    exact ⟨hlead, hswath, hfifo, hdecided t ht⟩

theorem sound_iff (s : State) :
    s.Sound ↔ s.Core ∧ s.engine.FetchOk ∧ s.DecidedTo s.engine.fetchPos := by
  rw [← fetchLaw_iff]
  constructor
  · rintro ⟨h1, h2, h3, h4, h5, h6, h7⟩
    exact ⟨⟨h1, h2, h3, h4, h5, h6⟩, h7⟩
  · rintro ⟨⟨h1, h2, h3, h4, h5, h6⟩, h7⟩
    exact ⟨h1, h2, h3, h4, h5, h6, h7⟩

theorem State.DecidedTo.mono {s : State} {m n : Nat} (h : s.DecidedTo n) (hmn : m ≤ n) : s.DecidedTo m := by
  intro t ht
  obtain ⟨p, hp, hcopy, hbands⟩ := h t ht
  exact ⟨p, hp, hcopy, fun i b hb hi => hbands i b hb (by omega)⟩

/-! ### Changes that keep the laws -/

/-- Every law of O59 and O60 passes from `s` to `u`. -/
structure Keeps (s u : State) : Prop where
  link : s.link.Bounded → u.link.Bounded
  ring : s.segs.RingLaw → u.segs.RingLaw
  table : s.table.Bounded → u.table.Bounded
  marks : s.marks.Ordered → u.marks.Ordered
  fifo : s.engine.FifoLaw → u.engine.FifoLaw
  stores : s.StoresWhole → u.StoresWhole
  segs : s.SegmentLaw → u.SegmentLaw
  queue : s.QueueLaw → u.QueueLaw
  sound : s.Sound → u.Sound

/-- The laws that pass in the middle of a command, where the engine goes on with its copy: those of the engine's own registers
(`Engine.FifoLaw`, `Engine.FetchOk`) are left to the command. -/
structure Steady (s u : State) : Prop where
  link : s.link.Bounded → u.link.Bounded
  ring : s.segs.RingLaw → u.segs.RingLaw
  table : s.table.Bounded → u.table.Bounded
  marks : s.marks.Ordered → u.marks.Ordered
  stores : s.StoresWhole → u.StoresWhole
  segs : s.SegmentLaw → u.SegmentLaw
  queue : s.QueueLaw → u.QueueLaw
  core : s.Core → u.Core
  taken : u.engine.taken = s.engine.taken
  decided : ∀ n, s.QueueLaw → s.DecidedTo n → u.DecidedTo n

theorem Keeps.refl (s : State) : Keeps s s := ⟨id, id, id, id, id, id, id, id, id⟩

theorem Keeps.trans {s t u : State} (h : Keeps s t) (k : Keeps t u) : Keeps s u :=
  ⟨k.link ∘ h.link, k.ring ∘ h.ring, k.table ∘ h.table, k.marks ∘ h.marks, k.fifo ∘ h.fifo, k.stores ∘ h.stores,
    k.segs ∘ h.segs, k.queue ∘ h.queue, k.sound ∘ h.sound⟩

theorem Steady.refl (s : State) : Steady s s := ⟨id, id, id, id, id, id, id, id, rfl, fun _ _ => id⟩

theorem Steady.trans {s t u : State} (h : Steady s t) (k : Steady t u) : Steady s u :=
  ⟨k.link ∘ h.link, k.ring ∘ h.ring, k.table ∘ h.table, k.marks ∘ h.marks, k.stores ∘ h.stores, k.segs ∘ h.segs,
    k.queue ∘ h.queue, k.core ∘ h.core, k.taken.trans h.taken, fun n hq hd => k.decided n (h.queue hq) (h.decided n hq hd)⟩

/-- A steady change that leaves the engine's laws, and does not move the fetch on, keeps every law. -/
theorem Steady.keeps {s u : State} (h : Steady s u) (hfifo : s.engine.FifoLaw → u.engine.FifoLaw)
    (hfetch : s.engine.FetchOk → u.engine.FetchOk) (hpos : u.engine.fetchPos ≤ s.engine.fetchPos) : Keeps s u where
  link := h.link
  ring := h.ring
  table := h.table
  marks := h.marks
  fifo := hfifo
  stores := h.stores
  segs := h.segs
  queue := h.queue
  sound hs := by
    obtain ⟨hcore, hok, hdecided⟩ := (sound_iff s).mp hs
    exact (sound_iff u).mpr ⟨h.core hcore, hfetch hok, (h.decided _ hcore.queue hdecided).mono hpos⟩

theorem Steady.keeps_same {s u : State} (h : Steady s u) (he : u.engine = s.engine) : Keeps s u :=
  h.keeps (fun hs => he ▸ hs) (fun hs => he ▸ hs) (by rw [he])

/-- A change beside the plate table, the pool and the engine: the entries left live were live before, and the renderers keep
their work. -/
structure Calm (s u : State) : Prop where
  link : s.link.Bounded → u.link.Bounded
  ring : s.segs.RingLaw → u.segs.RingLaw
  marks : s.marks.Ordered → u.marks.Ordered
  stores : s.StoresWhole → u.StoresWhole
  segs : s.SegmentLaw → u.SegmentLaw
  entries : ∀ e ∈ u.segs.queue, e.live = true →
    ∃ e' ∈ s.segs.queue, e'.live = true ∧ e'.header = e.header ∧ e'.linked = e.linked
  pool : u.pool = s.pool
  table : u.table = s.table
  decoder : u.decoder.map Decode.work = s.decoder.map Decode.work
  screener : u.screener.map Screen.work = s.screener.map Screen.work
  engine : u.engine = s.engine

theorem Calm.refl (s : State) : Calm s s :=
  ⟨id, id, id, id, id, fun e he hl => ⟨e, he, hl, rfl, rfl⟩, rfl, rfl, rfl, rfl, rfl⟩

theorem Calm.trans {s t u : State} (h : Calm s t) (k : Calm t u) : Calm s u where
  link := k.link ∘ h.link
  ring := k.ring ∘ h.ring
  marks := k.marks ∘ h.marks
  stores := k.stores ∘ h.stores
  segs := k.segs ∘ h.segs
  entries e he hl := by
    obtain ⟨e', he', hl', hh, hk⟩ := k.entries e he hl
    obtain ⟨e'', he'', hl'', hh', hk'⟩ := h.entries e' he' hl'
    exact ⟨e'', he'', hl'', hh'.trans hh, hk'.trans hk⟩
  pool := k.pool.trans h.pool
  table := k.table.trans h.table
  decoder := k.decoder.trans h.decoder
  screener := k.screener.trans h.screener
  engine := k.engine.trans h.engine

section beside
variable {s u : State}

theorem works_of_maps (hd : u.decoder.map Decode.work = s.decoder.map Decode.work)
    (hs : u.screener.map Screen.work = s.screener.map Screen.work) : u.works = s.works := by
  simp [State.works, hd, hs]

theorem State.QueueLaw.congr (h : s.QueueLaw) (ht : u.table = s.table) (htaken : u.engine.taken = s.engine.taken)
    (hidle : u.engine.state = .idle ↔ s.engine.state = .idle) : u.QueueLaw := by
  unfold State.QueueLaw at *
  rwa [ht, htaken, hidle]

theorem State.BandLaw.congr (h : s.BandLaw) (ht : u.table = s.table) : u.BandLaw := by
  intro id p hp
  exact h id p (by rwa [plate?_of_table ht] at hp)

/-- The render law where the table stands, the works stand, and the live entries were live before. -/
theorem State.RenderLaw.congr (h : s.RenderLaw) (ht : u.table = s.table) (hw : u.works = s.works)
    (hentries : ∀ e ∈ u.segs.queue, e.live = true →
      ∃ e' ∈ s.segs.queue, e'.live = true ∧ e'.header = e.header ∧ e'.linked = e.linked) : u.RenderLaw := by
  obtain ⟨hinto, hband, hpair, hseq⟩ := h
  unfold State.RenderLaw
  simp only [plate?_of_table ht, hw]
  refine ⟨hinto, hband, hpair, fun e he hl hk => ?_⟩
  obtain ⟨e', he', hl', hh, hlink⟩ := hentries e he hl
  have := hseq e' he' hl' (hlink.trans hk)
  rwa [hh] at this

theorem State.BufferLaw.congr (h : s.BufferLaw) (ht : u.table = s.table) (hp : u.pool = s.pool) (hw : u.works = s.works) :
    u.BufferLaw := by
  unfold State.BufferLaw State.placesOf at *
  rwa [ht, hp, hw]

theorem State.ReservationLaw.congr (h : s.ReservationLaw) (ht : u.table = s.table) (hp : u.pool = s.pool) :
    u.ReservationLaw := by
  have hholds : u.holds = s.holds := by funext id; simp [State.holds, plate?_of_table ht]
  have hneed : u.needSum = s.needSum := by
    funext ids
    have : u.needOf = s.needOf := by funext id; simp [State.needOf, plate?_of_table ht]
    simp [State.needSum, this]
  unfold State.ReservationLaw at *
  rwa [ht, hp, hholds, hneed]

theorem State.DecidedTo.congr {n : Nat} (h : s.DecidedTo n) (ht : u.table = s.table)
    (htaken : u.engine.taken = s.engine.taken) : u.DecidedTo n := by
  unfold State.DecidedTo at *
  simpa only [plate?_of_table ht, htaken] using h

/-- A calm change is steady. -/
theorem Calm.steady (h : Calm s u) : Steady s u where
  link := h.link
  ring := h.ring
  table hs := by rwa [h.table]
  marks := h.marks
  stores := h.stores
  segs := h.segs
  queue hs := State.QueueLaw.congr hs h.table (by rw [h.engine]) (by rw [h.engine])
  core hs :=
    have hw := works_of_maps h.decoder h.screener
    { queue := State.QueueLaw.congr hs.queue h.table (by rw [h.engine]) (by rw [h.engine])
      segs := h.segs hs.segs
      bands := State.BandLaw.congr hs.bands h.table
      renders := State.RenderLaw.congr hs.renders h.table hw h.entries
      buffers := State.BufferLaw.congr hs.buffers h.table h.pool hw
      reservation := State.ReservationLaw.congr hs.reservation h.table h.pool }
  taken := by rw [h.engine]
  decided _ _ hd := State.DecidedTo.congr hd h.table (by rw [h.engine])

theorem Calm.keeps (h : Calm s u) : Keeps s u := h.steady.keeps_same h.engine

/-- Nothing that a law rests on changes but the link, the marks and the stores, each within its bounds. -/
theorem Calm.beside (hlink : s.link.Bounded → u.link.Bounded) (hmarks : s.marks.Ordered → u.marks.Ordered)
    (hstores : s.StoresWhole → u.StoresWhole) (hsegs : u.segs = s.segs)
    (hopened : u.feed.intake.opened = s.feed.intake.opened) (hscreens : u.screens = s.screens)
    (hpool : u.pool = s.pool) (htable : u.table = s.table)
    (hdecoder : u.decoder.map Decode.work = s.decoder.map Decode.work)
    (hscreener : u.screener.map Screen.work = s.screener.map Screen.work) (hengine : u.engine = s.engine) : Calm s u where
  link := hlink
  ring hs := by rwa [hsegs]
  marks := hmarks
  stores := hstores
  segs hs := by
    refine hs.congr (by rw [hsegs]) hopened ?_ ?_ hscreens
    · simpa [Option.map_map, Function.comp_def] using congrArg (Option.map Work.entry) hdecoder
    · simpa [Option.map_map, Function.comp_def] using congrArg (Option.map Work.entry) hscreener
  entries e he hl := ⟨e, by rwa [hsegs] at he, hl, rfl, rfl⟩
  pool := hpool
  table := htable
  decoder := hdecoder
  screener := hscreener
  engine := hengine

theorem stores_of (hscreens : u.screens.length = s.screens.length) (hstamps : u.stamps = s.stamps) :
    s.StoresWhole → u.StoresWhole := by
  unfold State.StoresWhole
  rw [hscreens, hstamps]
  exact id

end beside

/-! ### The calm updates -/

section updates
variable (s : State)

theorem withPins_calm (x : Pins) : Calm s (s.withPins x) := .beside id id id rfl rfl rfl rfl rfl rfl rfl rfl
theorem withMonitor_calm (x : Monitor) : Calm s (s.withMonitor x) := .beside id id id rfl rfl rfl rfl rfl rfl rfl rfl
theorem withArbiter_calm (x : Arbiter) : Calm s (s.withArbiter x) := .beside id id id rfl rfl rfl rfl rfl rfl rfl rfl
theorem withMemory_calm (x : Memory) : Calm s (s.withMemory x) := .beside id id id rfl rfl rfl rfl rfl rfl rfl rfl
theorem withPending_calm (x : List Instr) : Calm s (s.withPending x) := .beside id id id rfl rfl rfl rfl rfl rfl rfl rfl

theorem withLink_calm {x : Link} (h : s.link.Bounded → x.Bounded) : Calm s (s.withLink x) :=
  .beside h id id rfl rfl rfl rfl rfl rfl rfl rfl

theorem withMarks_calm {x : Marks} (h : s.marks.Ordered → x.Ordered) : Calm s (s.withMarks x) :=
  .beside id h id rfl rfl rfl rfl rfl rfl rfl rfl

theorem withFeed_calm {x : Feed} (h : x.intake.opened = s.feed.intake.opened) : Calm s (s.withFeed x) :=
  .beside id id id rfl h rfl rfl rfl rfl rfl rfl

theorem withDecoder_calm {x : Option Decode} (h : x.map Decode.work = s.decoder.map Decode.work) :
    Calm s (s.withDecoder x) := .beside id id id rfl rfl rfl rfl rfl h rfl rfl

theorem withScreener_calm {x : Option Screen} (h : x.map Screen.work = s.screener.map Screen.work) :
    Calm s (s.withScreener x) := .beside id id id rfl rfl rfl rfl rfl rfl h rfl

end updates

end Sys2Proof.Machine

/-! The operations beside the plate table: each is calm. -/

namespace Sys2Proof.Machine

/-! ### The control link -/

theorem satAdd_le (n k : Nat) : satAdd n k ≤ 65535 := Nat.min_le_right _ _

theorem Link.Bounded.post {l : Link} (h : l.Bounded) (n : Notice) : (l.post n).Bounded := by
  obtain ⟨hreq, hrep, hnot, hlost, herr⟩ := h
  have hplaces : (if n.cls = .fault then 32 else 28) ≤ 32 := by split <;> omega
  unfold Link.post
  by_cases hroom : l.notices.length < (if n.cls = .fault then 32 else 28)
  · rw [if_pos hroom]
    exact ⟨hreq, hrep, by simp only [List.length_append, List.length_singleton]; omega, hlost, herr⟩
  · rw [if_neg hroom]
    exact ⟨hreq, hrep, hnot, satAdd_le _ _, herr⟩

theorem Link.Bounded.tell {l : Link} (h : l.Bounded) (r : Reply) : (l.tell r).Bounded := by
  obtain ⟨hreq, hrep, hrest⟩ := h
  unfold Link.tell
  by_cases hroom : l.replies.length + (if l.job.isSome then 1 else 0) < 8
  · rw [if_pos hroom]
    exact ⟨hreq, by simp only [List.length_append, List.length_singleton]; omega, hrest⟩
  · rw [if_neg hroom]
    exact ⟨hreq, hrep, hrest⟩

theorem Link.Bounded.error {l : Link} (h : l.Bounded) : l.error.Bounded := by
  obtain ⟨hreq, hrep, hnot, hlost, -⟩ := h
  exact Link.Bounded.tell (l := { l with receiver := .hunt, errors := satAdd l.errors 1 })
    ⟨hreq, hrep, hnot, hlost, satAdd_le _ _⟩ _

theorem Link.Bounded.join {l : Link} (h : l.Bounded) (m : Message) : (l.join m).Bounded := by
  unfold Link.join
  split
  next hroom =>
    obtain ⟨hreq, hrest⟩ := h
    exact ⟨by simp only [List.length_append, List.length_singleton]; omega, hrest⟩
  · exact h.tell _

theorem Link.Bounded.judge {l : Link} (h : l.Bounded) (m : Message) (good : Bool) : (l.judge m good).Bounded := by
  unfold Link.judge
  split
  · exact Link.Bounded.join (l := { l with receiver := .hunt }) h m
  · exact h.error

/-- A reply keeps the bounds where it has a place: the one that the request being carried out keeps, or a free one. -/
theorem Link.Bounded.answer {l : Link} (h : l.Bounded) (hroom : l.replies.length < 8) (a : Status) (r : List Byte) :
    (l.answer a r).Bounded := by
  obtain ⟨hreq, hrep, hrest⟩ := h
  unfold Link.answer
  split
  · exact ⟨hreq, hrep, hrest⟩
  next m rest hm =>
    refine ⟨?_, ?_, hrest⟩
    · simp only [hm, List.length_cons] at hreq
      exact Nat.le_of_succ_le hreq
    · simpa using hroom

theorem Link.Bounded.beginSend {l : Link} (h : l.Bounded) : l.beginSend.Bounded := by
  obtain ⟨hreq, hrep, hnot, hlost, herr⟩ := h
  unfold Link.beginSend
  split
  next r rest hr =>
    refine ⟨hreq, ?_, hnot, hlost, herr⟩
    simp only [hr, List.length_cons] at hrep
    dsimp only
    omega
  next hr =>
    split
    next n rest hn =>
      refine ⟨hreq, hrep, ?_, Nat.zero_le _, herr⟩
      simp only [hn, List.length_cons] at hnot
      exact Nat.le_of_succ_le hnot
    · exact ⟨hreq, hrep, hnot, hlost, herr⟩

section calm
variable (s : State)

theorem post_calm (n : Notice) : Calm s (s.post n) := withLink_calm s fun h => h.post n

theorem answer_calm (hroom : s.link.replies.length < 8) (a : Status) (r : List Byte) : Calm s (s.answer a r) :=
  withLink_calm s fun h => h.answer hroom a r

theorem sendNext_calm : Calm s s.sendNext := withLink_calm s fun h => h.beginSend

/-! ### The feed -/

theorem finishFrame_calm : Calm s s.finishFrame := withFeed_calm s rfl

theorem count_calm (f : Counters → Counters) : Calm s (s.count f) := withFeed_calm s rfl

theorem setIntake_calm {i : Intake} (h : i.opened = s.feed.intake.opened) : Calm s (s.setIntake i) := withFeed_calm s h

theorem frameStart_calm (kind : Byte) (length : Nat) : Calm s (s.frameStart kind length) := by
  unfold State.frameStart
  split
  · exact withFeed_calm s rfl
  · exact withFeed_calm s rfl

theorem endFrame_calm (body : List Byte) (crc : Crc16) : Calm s (s.withFeed (s.feed.endFrame body crc)) := by
  refine withFeed_calm s ?_
  unfold Feed.endFrame
  split <;> rfl

theorem cutFrame_calm : Calm s (s.withFeed s.feed.cutFrame).testHold := by
  refine withFeed_calm s ?_
  change s.feed.cutFrame.intake.opened = _
  unfold Feed.cutFrame
  split <;> rfl

theorem testStall_calm : Calm s s.testStall := by
  unfold State.testStall
  split
  · exact .refl s
  · split
    · exact (withFeed_calm s (x := { s.feed with stallArmed := false }) rfl).trans (post_calm _ _)
    · exact .refl s

/-! ### The segment queue -/

theorem heldRing_append (a b : List Entry) : heldRing (a ++ b) = heldRing a + heldRing b := by simp [heldRing]

theorem heldRing_of_suffix {a b : List Entry} (h : a <:+ b) : heldRing a ≤ heldRing b := by
  obtain ⟨c, rfl⟩ := h
  rw [heldRing_append]
  exact Nat.le_add_left _ _

/-- The ring law rests on the declared lengths. -/
theorem Segments.RingLaw.of_suffix {g k : Segments} (h : g.RingLaw) (q : List Entry) (hq : k.queue <:+ q)
    (hlen : q.length = g.queue.length) (hheld : heldRing q = heldRing g.queue) : k.RingLaw := by
  obtain ⟨hroom, hring⟩ := h
  exact ⟨by have := hq.length_le; omega, by have := heldRing_of_suffix hq; omega⟩

@[simp] theorem heldRing_moveEntries (w : Entry → Bool) (a b : EntryState) (q : List Entry) :
    heldRing (moveEntries w a b q) = heldRing q := by
  unfold heldRing moveEntries
  rw [List.map_map]
  refine congrArg List.sum (List.map_congr_left fun e _ => ?_)
  simp only [Function.comp_apply]
  split <;> rfl

@[simp] theorem length_moveEntries (w : Entry → Bool) (a b : EntryState) (q : List Entry) :
    (moveEntries w a b q).length = q.length := by simp [moveEntries]

theorem releaseRing_calm : Calm s s.releaseRing where
  link h := by simpa using h
  ring h := h.of_suffix _ (releaseRing_suffix s) rfl rfl
  marks h := by simpa using h
  stores h := stores_of (by simp) (by simp) h
  segs h := h.releaseRing
  entries e he hl := ⟨e, releaseRing_sub s e he, hl, rfl, rfl⟩
  pool := by simp
  table := by simp
  decoder := by simp
  screener := by simp
  engine := by simp

/-- An entry that a lowering leaves live was live before. -/
theorem live_of_lowered {e e' : Entry} (hl : e.live = true) (hstate : e.state = e'.state ∨ e.state = .dead) :
    e'.live = true := by
  rcases hstate with hs | hs
  · simpa [Entry.live, hs] using hl
  · simp [Entry.live, hs] at hl

theorem abandon_link (r : Abandon) (i : Intake) (h : s.link.Bounded) : (s.abandon r i).link.Bounded := by
  unfold State.abandon
  split
  · dsimp only
    split <;> simpa [State.post] using h.post _
  all_goals exact h

theorem abandon_queue (r : Abandon) (i : Intake) : ∃ q, (s.abandon r i).segs.queue <:+ q
    ∧ q.length = s.segs.queue.length ∧ heldRing q = heldRing s.segs.queue := by
  unfold State.abandon
  split
  · refine ⟨moveEntries (fun _ => true) .assembling .dead s.segs.queue, ?_, length_moveEntries _ _ _ _,
      heldRing_moveEntries _ _ _ _⟩
    dsimp only
    split <;> exact (releaseRing_suffix _).trans (by simp)
  all_goals exact ⟨_, List.suffix_rfl, rfl, rfl⟩

theorem abandon_screens (r : Abandon) (i : Intake) : (s.abandon r i).screens.length = s.screens.length := by
  unfold State.abandon
  split
  · dsimp only
    split <;> simp [returnUse_length]
  all_goals rfl

theorem abandon_calm (r : Abandon) {i : Intake} (hi : i.opened = []) : Calm s (s.abandon r i) where
  link := abandon_link s r i
  ring h := by
    obtain ⟨q, hq, hlen, hheld⟩ := abandon_queue s r i
    exact h.of_suffix q hq hlen hheld
  marks h := by simpa using h
  stores h := stores_of (abandon_screens s r i) (by simp) h
  segs h := h.abandon r i hi
  entries e he hl := by
    obtain ⟨e', he', hh, hk, hs⟩ := abandon_entries s r i e he
    exact ⟨e', he', live_of_lowered hl hs, hh.symm, hk.symm⟩
  pool := by simp
  table := by simp
  decoder := by simp
  screener := by simp
  engine := by simp

theorem interrupt_calm (w : Header → Bool) : Calm s (s.interrupt w) := by
  unfold State.interrupt
  split
  · exact abandon_calm s _ rfl
  · exact .refl s

theorem discard_calm (w : Entry → Bool) : Calm s (s.discard w) where
  link h := by simpa using h
  ring h := h.of_suffix _ List.suffix_rfl (by simp [State.discard]) (by simp [State.discard])
  marks h := by simpa using h
  stores h := stores_of (by simp [State.discard, returnUses_length]) (by simp) h
  segs h := h.discard w
  entries e he hl := by
    simp only [State.discard, withSegs_segs, moveEntries, List.mem_map] at he
    obtain ⟨a, ha, rfl⟩ := he
    split at hl
    · simp [Entry.live] at hl
    next hn => rw [if_neg hn]; exact ⟨a, ha, hl, rfl, rfl⟩
  pool := by simp
  table := by simp
  decoder := by simp
  screener := by simp
  engine := by simp

theorem completeSegment_calm : Calm s s.completeSegment where
  link h := by simpa using h
  ring h := h.of_suffix _ List.suffix_rfl (by simp [State.completeSegment]) (by simp [State.completeSegment])
  marks h := by simpa using h
  stores h := stores_of (by simp) (by simp) h
  segs h := h.completeSegment rfl
  entries e he hl := by
    simp only [State.completeSegment, setIntake_frame, withSegs_segs, moveEntries, List.mem_map] at he
    obtain ⟨a, ha, rfl⟩ := he
    split at hl
    next hc => rw [if_pos hc]; exact ⟨a, ha, by simp [Entry.live, hc.1], rfl, rfl⟩
    next hn => rw [if_neg hn]; exact ⟨a, ha, hl, rfl, rfl⟩
  pool := by simp
  table := by simp
  decoder := by simp
  screener := by simp
  engine := by simp

/-! ### The marks -/

theorem insertMark_length (r : MarkRequest) (q : List MarkRequest) : (insertMark r q).length = q.length + 1 := by
  induction q with
  | nil => rfl
  | cons x rest ih =>
    unfold insertMark
    split <;> simp [ih]

theorem mem_insertMark {r x : MarkRequest} {q : List MarkRequest} (h : x ∈ insertMark r q) : x = r ∨ x ∈ q := by
  induction q with
  | nil => exact .inl (List.mem_singleton.mp h)
  | cons y rest ih =>
    unfold insertMark at h
    split at h
    · rcases List.mem_cons.mp h with rfl | h
      · exact .inr (List.mem_cons_self ..)
      · exact (ih h).imp_right (List.mem_cons_of_mem _)
    · exact List.mem_cons.mp h

theorem insertMark_ordered (r : MarkRequest) {q : List MarkRequest} (h : q.Pairwise fun a b => a.line ≤ b.line) :
    (insertMark r q).Pairwise fun a b => a.line ≤ b.line := by
  induction q with
  | nil => exact List.pairwise_singleton _ _
  | cons x rest ih =>
    obtain ⟨hx, hrest⟩ := List.pairwise_cons.mp h
    unfold insertMark
    split
    next hle =>
      refine List.pairwise_cons.mpr ⟨fun y hy => ?_, ih hrest⟩
      rcases mem_insertMark hy with rfl | hy
      · exact hle
      · exact hx y hy
    next hlt =>
      refine List.pairwise_cons.mpr ⟨fun y hy => ?_, h⟩
      rcases List.mem_cons.mp hy with rfl | hy
      · omega
      · have := hx y hy
        omega

theorem Marks.Ordered.request {m : Marks} (h : m.Ordered) (pattern line : Nat) (link : Option Nat) :
    (m.request pattern line link).Ordered := by
  obtain ⟨hlen, hord⟩ := h
  unfold Marks.request
  split
  next hroom => exact ⟨by simp only [insertMark_length]; omega, insertMark_ordered _ hord⟩
  · exact ⟨hlen, hord⟩

theorem Marks.Ordered.of_queue {m n : Marks} (h : m.Ordered) (hq : n.queue = m.queue) : n.Ordered := by
  unfold Marks.Ordered
  rwa [hq]

theorem requestMark_calm (c : Cause) (line : Nat) (link : Option Nat) : Calm s (s.requestMark c line link) := by
  unfold State.requestMark
  split
  · exact .refl s
  · exact withMarks_calm s fun h => h.request _ _ _

theorem setRun_calm (r : UnderrunRun) : Calm s (s.setRun r) := withMarks_calm s fun h => h.of_queue rfl

/-! ### The monitor -/

theorem abandonScan_calm : Calm s s.abandonScan := by
  unfold State.abandonScan
  split
  · exact (withMonitor_calm s _).trans (post_calm _ _)
  · exact .refl s

theorem openGap_calm : Calm s s.openGap := by
  unfold State.openGap
  dsimp only
  repeat' split
  all_goals exact withMonitor_calm s _

theorem scanNext_calm : Calm s s.scanNext := by
  unfold State.scanNext
  repeat' split
  all_goals exact withMonitor_calm s _

theorem scanAfterRef_calm (o : RefOutcome) : Calm s (s.scanAfterRef o) := by
  unfold State.scanAfterRef
  split
  · exact scanNext_calm s
  · exact (withMonitor_calm s _).trans (post_calm _ _)

theorem scanAfterBeam_calm (k : Fin 4) (status : BeamStatus) (pi n2 : Option Nat) (n1 gate : Nat) :
    Calm s (s.scanAfterBeam k status pi n2 n1 gate) := (post_calm s _).trans (scanNext_calm _)

end calm

end Sys2Proof.Machine

/-! One plate record replaced: what the laws need of the new record and of the buffers it gives back. -/

namespace Sys2Proof.Machine

/-! ### Finding the record -/

/-- Where ids are unique, the record found splits the table, and its id stands nowhere else. -/
theorem plates_split {s : State} {id : Nat} {p : Plate} (hnodup : (s.table.plates.map Plate.id).Nodup)
    (hp : s.plate? id = some p) :
    p.id = id ∧ ∃ l r, s.table.plates = l ++ p :: r ∧ (∀ x ∈ l, x.id ≠ id) ∧ ∀ x ∈ r, x.id ≠ id := by
  obtain ⟨hid, hmem⟩ := plate?_some hp
  refine ⟨hid, ?_⟩
  obtain ⟨l, r, hlr⟩ := List.append_of_mem hmem
  refine ⟨l, r, hlr, ?_⟩
  rw [hlr, List.map_append, List.map_cons, List.nodup_middle, List.nodup_cons, hid] at hnodup
  have hnew := hnodup.1
  simp only [List.mem_append, List.mem_map, not_or, not_exists, not_and] at hnew
  exact ⟨fun x hx => hnew.1 x hx, fun x hx => hnew.2 x hx⟩

theorem map_if_of_ne {l : List Plate} {id : Nat} (f : Plate → Plate) (h : ∀ x ∈ l, x.id ≠ id) :
    (l.map fun p => if p.id = id then f p else p) = l :=
  (List.map_congr_left fun x hx => if_neg (h x hx)).trans (List.map_id l)

theorem modPlate_plates_of_split {s : State} {id : Nat} {p : Plate} {l r : List Plate} (f : Plate → Plate) (hid : p.id = id)
    (hlr : s.table.plates = l ++ p :: r) (hl : ∀ x ∈ l, x.id ≠ id) (hr : ∀ x ∈ r, x.id ≠ id) :
    (s.modPlate id f).table.plates = l ++ f p :: r := by
  simp only [State.modPlate, withTable_table, hlr, List.map_append, List.map_cons, map_if_of_ne f hl, map_if_of_ne f hr,
    if_pos hid]

theorem modPlate_of_absent {s : State} {id : Nat} (f : Plate → Plate) (h : s.plate? id = none) : s.modPlate id f = s := by
  have := map_if_of_ne f ((plate?_none s id).mp h)
  unfold State.modPlate
  rw [this]
  rfl

@[simp] theorem modPlate_queue (s : State) (id : Nat) (f : Plate → Plate) :
    (s.modPlate id f).table.queue = s.table.queue := rfl

/-! ### The new record -/

/-- What becomes of a band: nothing but its state and its buffer changes, a buffer is given up only outside a render, its
need does not rise while its plate lives, and it does not begin to take renders. -/
structure BandStep (live live' : Bool) (b b' : Band) : Prop where
  nextSeq : b'.nextSeq = b.nextSeq
  rendering : b'.rendering = b.rendering
  buffer : b'.buffer = b.buffer ∨ b'.buffer = none ∧ (b.Shaped live → b.rendering = false)
  needs : live' = live → b'.needs = true → b.needs = true
  going : b'.state = .empty ∨ b'.state = .filling → b.state = .empty ∨ b.state = .filling
  shaped : b.Shaped live → b'.Shaped live'

/-- A plate record replaced by `p'`, which gives back `freed`. -/
structure PlateStep (p p' : Plate) (freed : List Nat) : Prop where
  id : p'.id = p.id
  height : p'.height = p.height
  live : p'.live = true → p.live = true
  bands : List.Forall₂ (BandStep p.live p'.live) p.bands p'.bands
  freed : ∀ n, (p'.bands.filterMap Band.buffer).count n + freed.count n = (p.bands.filterMap Band.buffer).count n

theorem forall₂_getElem? {α β : Type} {R : α → β → Prop} {l : List α} {k : List β} (h : List.Forall₂ R l k) {i : Nat}
    {b : β} (hb : k[i]? = some b) : ∃ a, l[i]? = some a ∧ R a b := by
  induction h generalizing i with
  | nil => simp at hb
  | cons hab _ ih =>
    cases i with
    | zero => exact ⟨_, rfl, by simpa using (Option.some.inj hb) ▸ hab⟩
    | succ i => exact ih hb

theorem forall₂_getElem?' {α β : Type} {R : α → β → Prop} {l : List α} {k : List β} (h : List.Forall₂ R l k) {i : Nat}
    {a : α} (ha : l[i]? = some a) : ∃ b, k[i]? = some b ∧ R a b :=
  forall₂_getElem? (R := fun b a => R a b) h.flip ha

theorem needs_length_le {live live' : Bool} (hlive : live' = live) {l k : List Band}
    (h : List.Forall₂ (BandStep live live') l k) :
    (k.filter Band.needs).length ≤ (l.filter Band.needs).length := by
  induction h with
  | nil => exact Nat.le_refl _
  | @cons b b' _ _ hb _ ih =>
    by_cases hn' : b'.needs = true
    · simpa [List.filter_cons, hn', hb.needs hlive hn'] using ih
    · by_cases hn : b.needs = true
      · simp only [List.filter_cons, hn', hn, if_true, Bool.false_eq_true, if_false, List.length_cons]
        omega
      · simpa [List.filter_cons, hn', hn] using ih

theorem PlateStep.need_le {p p' : Plate} {freed : List Nat} (h : PlateStep p p' freed) (hlive : p'.live = p.live) :
    p'.need ≤ p.need :=
  needs_length_le hlive h.bands

theorem PlateStep.holds {p p' : Plate} {freed : List Nat} (h : PlateStep p p' freed) (hh : p'.holdsBuffer = true) :
    p.holdsBuffer = true := by
  obtain ⟨-, -, -, hbands, -⟩ := h
  unfold Plate.holdsBuffer at *
  obtain ⟨b', hb', hsome⟩ := List.any_eq_true.mp hh
  obtain ⟨i, hi⟩ := List.mem_iff_getElem?.mp hb'
  obtain ⟨b, hb, hstep⟩ := forall₂_getElem? hbands hi
  refine List.any_eq_true.mpr ⟨b, List.mem_of_getElem? hb, ?_⟩
  rcases hstep.buffer with he | ⟨he, -⟩
  · rwa [← he]
  · simp [he] at hsome

/-! ### The laws after the replacement -/

/-- State `u` is `s` with the record `p` replaced by `p'`, its buffers given back, and the queue cut to the ids that `keep`
names. -/
structure Replaces (s u : State) (p p' : Plate) (freed : List Nat) (keep : Nat → Bool) : Prop where
  found : s.plate? p.id = some p
  id : p'.id = p.id
  plates : ∃ l r, s.table.plates = l ++ p :: r ∧ u.table.plates = l ++ p' :: r
    ∧ (∀ x ∈ l, x.id ≠ p.id) ∧ ∀ x ∈ r, x.id ≠ p.id
  queue : u.table.queue = s.table.queue.filter keep
  pool : u.pool.free = s.pool.free ++ freed
  works : u.works = s.works
  entries : u.segs.queue = s.segs.queue

section replaces
variable {s u : State} {p p' : Plate} {freed : List Nat} {keep : Nat → Bool}

theorem Replaces.plate? (h : Replaces s u p p' freed keep) (id : Nat) :
    u.plate? id = if id = p.id then some p' else s.plate? id := by
  obtain ⟨l, r, hs, hu, hl, hr⟩ := h.plates
  have hl' : l.find? (fun x => decide (x.id = p.id)) = none := by simpa [List.find?_eq_none] using hl
  unfold State.plate?
  rw [hs, hu, List.find?_append, List.find?_append, List.find?_cons, List.find?_cons, h.id]
  by_cases hid : id = p.id
  · subst hid
    simp [hl']
  · have : ¬p.id = id := fun hc => hid hc.symm
    simp [hid, this]

theorem Replaces.plate?_self (h : Replaces s u p p' freed keep) : u.plate? p.id = some p' := by
  rw [h.plate?, if_pos rfl]

theorem Replaces.plate?_of_ne (h : Replaces s u p p' freed keep) {id : Nat} (hid : id ≠ p.id) :
    u.plate? id = s.plate? id := by
  rw [h.plate?, if_neg hid]

/-- A record of the new table, with the record it comes from. -/
theorem Replaces.origin (h : Replaces s u p p' freed keep) {id : Nat} {x : Plate} (hx : u.plate? id = some x) :
    ∃ y, s.plate? id = some y ∧ ((id ≠ p.id ∧ x = y) ∨ (id = p.id ∧ y = p ∧ x = p')) := by
  rw [h.plate?] at hx
  split at hx
  next hid => exact ⟨p, by rw [hid, h.found], .inr ⟨hid, rfl, (Option.some.inj hx).symm⟩⟩
  next hid => exact ⟨x, hx, .inl ⟨hid, rfl⟩⟩

theorem BandStep.refl (live : Bool) (b : Band) : BandStep live live b b := ⟨rfl, rfl, .inl rfl, fun _ => id, id, id⟩

/-- A band of the new table, with the band it comes from. -/
theorem Replaces.originBand (h : Replaces s u p p' freed keep) (hstep : PlateStep p p' freed) {id i : Nat} {x : Plate} {b' : Band}
    (hx : u.plate? id = some x) (hb : x.bands[i]? = some b') :
    ∃ y b, s.plate? id = some y ∧ y.bands[i]? = some b ∧ BandStep y.live x.live b b' ∧ (x.live = true → y.live = true) := by
  obtain ⟨y, hy, ⟨-, rfl⟩ | ⟨-, rfl, rfl⟩⟩ := h.origin hx
  · exact ⟨x, b', hy, hb, .refl _ _, fun hl => hl⟩
  · obtain ⟨b, hb, hband⟩ := forall₂_getElem? hstep.bands hb
    exact ⟨y, b, hy, hb, hband, hstep.live⟩

/-- A band of the old table, with the band it becomes. -/
theorem Replaces.imageBand (h : Replaces s u p p' freed keep) (hstep : PlateStep p p' freed) {id i : Nat} {y : Plate} {b : Band}
    (hy : s.plate? id = some y) (hb : y.bands[i]? = some b) :
    ∃ x b', u.plate? id = some x ∧ x.bands[i]? = some b' ∧ BandStep y.live x.live b b' ∧ (x.live = true → y.live = true) := by
  by_cases hid : id = p.id
  · subst hid
    obtain rfl : p = y := Option.some.inj (h.found.symm.trans hy)
    obtain ⟨b', hb', hband⟩ := forall₂_getElem?' hstep.bands hb
    exact ⟨p', b', h.plate?_self, hb', hband, hstep.live⟩
  · exact ⟨y, b, by rw [h.plate?_of_ne hid, hy], hb, .refl _ _, fun hl => hl⟩

theorem Replaces.bandLaw (h : Replaces s u p p' freed keep) (hstep : PlateStep p p' freed) (hs : s.BandLaw) : u.BandLaw := by
  intro id x hx
  refine ⟨?_, fun i b' hb' => ?_⟩
  · obtain ⟨y, hy, ⟨-, rfl⟩ | ⟨-, rfl, rfl⟩⟩ := h.origin hx
    · exact (hs id x hy).1
    · rw [← hstep.bands.length_eq, hstep.height]
      exact (hs id y hy).1
  · obtain ⟨y, b, hy, hb, hband, -⟩ := h.originBand hstep hx hb'
    exact hband.shaped ((hs id y hy).2 i b hb)

theorem Replaces.renderLaw (h : Replaces s u p p' freed keep) (hstep : PlateStep p p' freed) (hshape : s.BandLaw)
    (hs : s.RenderLaw) : u.RenderLaw := by
  obtain ⟨hinto, hband, hpair, hseq⟩ := hs
  unfold State.RenderLaw
  rw [h.works, h.entries]
  refine ⟨fun k hk hl => ?_, fun id x i b' hx hb' hr => ?_, hpair, fun e he hlive hl => ?_⟩
  · obtain ⟨y, b, hy, hb, hr, hbuf, hnext⟩ := hinto k hk hl
    obtain ⟨x, b', hx, hb', hstep, hlive⟩ := h.imageBand hstep hy hb
    refine ⟨x, b', hx, hb', hstep.rendering.trans hr, ?_, fun hxl hgo => ?_⟩
    · rcases hstep.buffer with hbuf' | ⟨-, hnot⟩
      · exact hbuf'.trans hbuf
      · simp [hr] at hnot
        exact absurd ((hshape _ y hy).2 _ b hb) hnot
    · rw [hstep.nextSeq]
      exact hnext (hlive hxl) (hstep.going hgo)
  · obtain ⟨y, b, hy, hb, hstep, -⟩ := h.originBand hstep hx hb'
    exact hband id y i b hy hb (hstep.rendering.symm.trans hr)
  · obtain ⟨y, b, hy, hb, hle⟩ := hseq e he hlive hl
    obtain ⟨x, b', hx, hb', hstep, -⟩ := h.imageBand hstep hy hb
    exact ⟨x, b', hx, hb', hstep.nextSeq ▸ hle⟩

theorem Replaces.bufferLaw (h : Replaces s u p p' freed keep) (hstep : PlateStep p p' freed) (hs : s.BufferLaw) : u.BufferLaw := by
  obtain ⟨l, r, hsp, hup, -, -⟩ := h.plates
  intro n
  rw [← hs n]
  have hcount := hstep.freed n
  simp only [State.placesOf, h.works, h.pool, hsp, hup, List.flatMap_append, List.flatMap_cons, List.count_append]
  omega

theorem Replaces.needOf_le (h : Replaces s u p p' freed keep) (hstep : PlateStep p p' freed)
    (hkeep : p'.live = p.live ∨ keep p.id = false) {id : Nat} (hid : keep id = true) : u.needOf id ≤ s.needOf id := by
  unfold State.needOf
  by_cases heq : id = p.id
  · subst heq
    rw [h.plate?_self, h.found]
    exact hstep.need_le (hkeep.resolve_right (by simp [hid]))
  · rw [h.plate?_of_ne heq]

theorem needSum_cons (s : State) (id : Nat) (ids : List Nat) : s.needSum (id :: ids) = s.needOf id + s.needSum ids := rfl

theorem needSum_append (s : State) (a b : List Nat) : s.needSum (a ++ b) = s.needSum a + s.needSum b := by
  simp [State.needSum]

theorem needSum_filter_le {s u : State} {keep : Nat → Bool} (h : ∀ id, keep id = true → u.needOf id ≤ s.needOf id)
    (ids : List Nat) : u.needSum (ids.filter keep) ≤ s.needSum ids := by
  induction ids with
  | nil => exact Nat.le_refl _
  | cons id rest ih =>
    rw [List.filter_cons, needSum_cons]
    split
    next hk =>
      have := h id hk
      rw [needSum_cons]
      omega
    · omega

/-- A place in a filtered list is a place in the list. -/
theorem split_of_filter {k : Nat → Bool} {q before after : List Nat} {id : Nat} (h : q.filter k = before ++ id :: after) :
    ∃ b a, q = b ++ id :: a ∧ before = b.filter k := by
  obtain ⟨b, c, rfl, hb, hc⟩ := List.filter_eq_append_iff.mp h
  obtain ⟨d, a, rfl, hd, -, -⟩ := List.filter_eq_cons_iff.mp hc
  refine ⟨b ++ d, a, by simp, ?_⟩
  rw [List.filter_append, List.filter_eq_nil_iff.mpr hd, List.append_nil, hb]

theorem Replaces.reservationLaw (h : Replaces s u p p' freed keep) (hstep : PlateStep p p' freed)
    (hkeep : p'.live = p.live ∨ keep p.id = false) (hs : s.ReservationLaw) : u.ReservationLaw := by
  intro before id after hq hholds
  rw [h.queue] at hq
  obtain ⟨b, a, hsq, rfl⟩ := split_of_filter hq
  have hold : s.holds id = true := by
    unfold State.holds at *
    rw [h.plate?] at hholds
    split at hholds
    next hid =>
      rw [hid, h.found]
      exact hstep.holds hholds
    · exact hholds
  have hfree := hs b id a hsq hold
  have hneed := needSum_filter_le (keep := keep) (fun _ => h.needOf_le hstep hkeep) b
  rw [h.pool, List.length_append]
  omega

/-- The core's laws but for the queue's and the segments', which the replacement does not speak of. -/
theorem Replaces.core (h : Replaces s u p p' freed keep) (hstep : PlateStep p p' freed)
    (hkeep : p'.live = p.live ∨ keep p.id = false) (hs : s.Core) (hqueue : u.QueueLaw) (hsegs : u.SegmentLaw) : u.Core :=
  ⟨hqueue, hsegs, h.bandLaw hstep hs.bands, h.renderLaw hstep hs.bands hs.renders, h.bufferLaw hstep hs.buffers,
    h.reservationLaw hstep hkeep hs.reservation⟩

end replaces

end Sys2Proof.Machine

/-! A plate record changed within its life: its records and counts (`PlateSame`), or the bands that its exposure moves on. -/

namespace Sys2Proof.Machine

/-! ### Lists changed at one place -/

theorem forall₂_refl {α : Type} {R : α → α → Prop} (hrefl : ∀ a, R a a) (l : List α) : List.Forall₂ R l l :=
  List.forall₂_same.mpr fun a _ => hrefl a

theorem forall₂_modify {α : Type} {R : α → α → Prop} (hrefl : ∀ a, R a a) {f : α → α} {l : List α} {i : Nat}
    (h : ∀ a, l[i]? = some a → R a (f a)) : List.Forall₂ R l (l.modify i f) := by
  induction l generalizing i with
  | nil => simp
  | cons a r ih =>
    cases i with
    | zero => exact .cons (h a rfl) (forall₂_refl hrefl r)
    | succ i => exact .cons (hrefl a) (ih fun b hb => h b hb)

theorem count_buffers_cons (d : Band → Option Nat) (a : Band) (r : List Band) (n : Nat) :
    ((a :: r).filterMap d).count n = (d a).toList.count n + (r.filterMap d).count n := by
  rw [List.filterMap_cons]
  cases d a with
  | none => simp
  | some m => simp only [Option.toList_some, List.count_cons, List.count_nil]; omega

/-- One band changed moves the count of a buffer by as much as its own changes. -/
theorem count_buffers_modify {f : Band → Band} {l : List Band} {i n : Nat} {b : Band} {x y : Nat}
    (hb : l[i]? = some b) (h : (f b).buffer.toList.count n + x = b.buffer.toList.count n + y) :
    ((l.modify i f).filterMap Band.buffer).count n + x = (l.filterMap Band.buffer).count n + y := by
  induction l generalizing i with
  | nil => simp at hb
  | cons a r ih =>
    cases i with
    | zero =>
      obtain rfl : a = b := by simpa using hb
      rw [List.modify_zero_cons, count_buffers_cons, count_buffers_cons]
      omega
    | succ i =>
      rw [List.modify_succ_cons, count_buffers_cons, count_buffers_cons]
      have := ih (by simpa using hb)
      omega

theorem count_buffers_map {g : Band → Band} {d : Band → Option Nat} {l : List Band} {n : Nat}
    (h : ∀ b ∈ l, (g b).buffer.toList.count n + (d b).toList.count n = b.buffer.toList.count n) :
    ((l.map g).filterMap Band.buffer).count n + (l.filterMap d).count n = (l.filterMap Band.buffer).count n := by
  induction l with
  | nil => rfl
  | cons a r ih =>
    have ha := h a (List.mem_cons_self ..)
    have hr := ih fun b hb => h b (List.mem_cons_of_mem _ hb)
    rw [List.map_cons, count_buffers_cons, count_buffers_cons, count_buffers_cons]
    omega

/-! ### The queue's law and the table's bounds -/

theorem State.QueueLaw.modPlate {s : State} (h : s.QueueLaw) (id : Nat) {f : Plate → Plate} (hid : ∀ x, (f x).id = x.id)
    (hstate : ∀ x, (f x).state = x.state) : (s.modPlate id f).QueueLaw := by
  obtain ⟨hnodup, hq, hlive, hactive, htaken, hidle⟩ := h
  have hids : ∀ x : Plate, (if x.id = id then f x else x).id = x.id := fun x => by split <;> simp [hid]
  have hstates : ∀ x : Plate, (if x.id = id then f x else x).state = x.state := fun x => by split <;> simp [hstate]
  have hlives : ∀ x : Plate, (if x.id = id then f x else x).live = x.live := fun x => by simp [Plate.live, hstates]
  unfold State.QueueLaw State.modPlate
  simp only [withTable_table, withTable_engine, List.map_map, Function.comp_def, hids, List.mem_map,
    exists_exists_and_eq_and, hlives, hstates, forall_exists_index, and_imp, forall_apply_eq_imp_iff₂]
  exact ⟨hnodup, hq, hlive, hactive, htaken, hidle⟩

theorem Table.Bounded.modPlate {s : State} (h : s.table.Bounded) (id : Nat) {f : Plate → Plate}
    (hid : ∀ x, (f x).id = x.id) (hbounded : ∀ p, s.plate? id = some p → p.Bounded → (f p).Bounded) :
    (s.modPlate id f).table.Bounded := by
  obtain ⟨hlen, hnodup, hall⟩ := h
  rcases hp : s.plate? id with _ | p
  · rw [modPlate_of_absent f hp]
    exact ⟨hlen, hnodup, hall⟩
  · obtain ⟨hpid, l, r, hlr, hl, hr⟩ := plates_split hnodup hp
    have hplates := modPlate_plates_of_split f hpid hlr hl hr
    have hids : (s.modPlate id f).table.plates.map Plate.id = s.table.plates.map Plate.id := by
      rw [hplates, hlr]
      simp [hid]
    refine ⟨by rw [hplates]; simpa [hlr] using hlen, by rwa [hids], fun x hx => ?_⟩
    rw [hplates, List.mem_append, List.mem_cons] at hx
    rw [hlr] at hall
    rcases hx with hx | rfl | hx
    · exact hall x (by simp [hx])
    · exact hbounded p hp (hall p (by simp))
    · exact hall x (by simp [hx])

/-! ### A record changed within its life -/

/-- What a change within a plate's life asks of the new record `p'`. -/
structure LifeStep (s : State) (p p' : Plate) (freed : List Nat) : Prop where
  found : s.plate? p.id = some p
  bounded : p.Bounded → p'.Bounded
  completed : p'.completed = p.completed
  copies : p'.copies = p.copies
  step : PlateStep p p' freed
  decided : ∀ t, s.engine.taken = some t → t.plate = p.id → t.copy = p.completed + 1 →
    List.Forall₂ (fun b b' => b.Decided (t.copy < p.copies) → b'.Decided (t.copy < p.copies)) p.bands p'.bands

theorem modPlate_replaces {s : State} {p : Plate} {f : Plate → Plate} {freed : List Nat}
    (hnodup : (s.table.plates.map Plate.id).Nodup) (hp : s.plate? p.id = some p) (hpid : (f p).id = p.id) :
    Replaces s ((s.modPlate p.id f).returnBuffers freed) p (f p) freed fun _ => true where
  found := hp
  id := hpid
  plates := by
    obtain ⟨hid, l, r, hlr, hl, hr⟩ := plates_split hnodup hp
    exact ⟨l, r, hlr, modPlate_plates_of_split f hid hlr hl hr, hl, hr⟩
  queue := by simp
  pool := rfl
  works := by simp [State.works]
  entries := by simp

/-- A record changed within its life, and buffers of its bands given back. -/
theorem Steady.life {s : State} {p : Plate} {f : Plate → Plate} {freed : List Nat} (hid : ∀ x, (f x).id = x.id)
    (hstate : ∀ x, (f x).state = x.state) (h : LifeStep s p (f p) freed) :
    Steady s ((s.modPlate p.id f).returnBuffers freed) where
  link hs := by simpa using hs
  ring hs := by simpa using hs
  table hs := by
    have := hs.modPlate p.id hid fun q hq hb => by
      obtain rfl : p = q := Option.some.inj (h.found.symm.trans hq)
      exact h.bounded hb
    simpa using this
  marks hs := by simpa using hs
  stores hs := stores_of (by simp) (by simp) hs
  segs hs := hs.same (by simp) (by simp) (by simp) (by simp) (by simp)
  queue hs := State.QueueLaw.congr (hs.modPlate p.id hid hstate) (by simp) (by simp) (by simp)
  core hs := (modPlate_replaces hs.queue.1 h.found h.step.id).core h.step
    (.inl (by simp [Plate.live, hstate])) hs
    (State.QueueLaw.congr (hs.queue.modPlate p.id hid hstate) (by simp) (by simp) (by simp))
    (hs.segs.same (by simp) (by simp) (by simp) (by simp) (by simp))
  taken := by simp
  decided n hs hd t ht := by
    have ht' : s.engine.taken = some t := by simpa using ht
    have hrep := modPlate_replaces (freed := freed) hs.1 h.found h.step.id
    obtain ⟨q, hq, hcopy, hbands⟩ := hd t ht'
    by_cases hplate : t.plate = p.id
    · rw [hplate] at hq
      obtain rfl : p = q := Option.some.inj (h.found.symm.trans hq)
      refine ⟨f p, by rw [hplate]; exact hrep.plate?_self, by rw [h.completed, hcopy], fun i b' hb' hi => ?_⟩
      obtain ⟨b, hb, hstep⟩ := forall₂_getElem? (h.decided t ht' hplate hcopy) hb'
      rw [h.copies]
      exact hstep (hbands i b hb hi)
    · exact ⟨q, by rw [hrep.plate?_of_ne hplate, hq], hcopy, hbands⟩

/-! ### Records and counts -/

/-- A band changed in what no law rests on: its render damage and its signatures. -/
def BandSame (b b' : Band) : Prop :=
  b' = { b with damaged := b'.damaged, expectedSig := b'.expectedSig, lastSig := b'.lastSig }

theorem BandSame.refl (b : Band) : BandSame b b := rfl

theorem BandSame.step {live : Bool} {b b' : Band} (h : BandSame b b') : BandStep live live b b' := by
  rw [h]
  exact ⟨rfl, rfl, .inl rfl, fun _ hn => hn, fun hg => hg, fun hs => hs⟩

theorem BandSame.buffer {b b' : Band} (h : BandSame b b') : b'.buffer = b.buffer := by rw [h]

theorem BandSame.state {b b' : Band} (h : BandSame b b') : b'.state = b.state := by rw [h]

theorem buffers_of_same {l k : List Band} (h : List.Forall₂ BandSame l k) :
    k.filterMap Band.buffer = l.filterMap Band.buffer := by
  induction h with
  | nil => rfl
  | cons hb _ ih => rw [List.filterMap_cons, List.filterMap_cons, hb.buffer, ih]

/-- A record changed in its damage table and its counts alone. -/
structure PlateSame (p p' : Plate) : Prop where
  id : p'.id = p.id
  state : p'.state = p.state
  height : p'.height = p.height
  copies : p'.copies = p.copies
  completed : p'.completed = p.completed
  bands : List.Forall₂ BandSame p.bands p'.bands
  bounded : p.Bounded → p'.Bounded

theorem PlateSame.step {p p' : Plate} (h : PlateSame p p') : PlateStep p p' [] where
  id := h.id
  height := h.height
  live := by simp [Plate.live, h.state]
  bands := by
    have : p'.live = p.live := by simp [Plate.live, h.state]
    rw [this]
    exact h.bands.imp fun _ _ hb => hb.step
  freed n := by simp [buffers_of_same h.bands]

theorem PlateSame.life {s : State} {p p' : Plate} (h : PlateSame p p') (hp : s.plate? p.id = some p) :
    LifeStep s p p' [] where
  found := hp
  bounded := h.bounded
  completed := h.completed
  copies := h.copies
  step := h.step
  decided _ _ _ _ := h.bands.imp fun b b' hb hd => by
    unfold Band.Decided at *
    rwa [hb.state]

theorem returnBuffers_nil (s : State) : s.returnBuffers [] = s := by
  simp [State.returnBuffers, State.withPool]

/-- A plate's damage table and counts changed. -/
theorem modPlate_steady (s : State) (id : Nat) {f : Plate → Plate} (hid : ∀ x, (f x).id = x.id)
    (hstate : ∀ x, (f x).state = x.state) (hf : ∀ p, s.plate? id = some p → PlateSame p (f p)) :
    Steady s (s.modPlate id f) := by
  rcases hp : s.plate? id with _ | p
  · rw [modPlate_of_absent f hp]
    exact .refl s
  · obtain ⟨rfl, -⟩ := plate?_some hp
    have := Steady.life hid hstate ((hf p hp).life hp)
    rwa [returnBuffers_nil] at this

end Sys2Proof.Machine

/-! The operations that change the records of a plate, and those that move its bands on in a copy. -/

namespace Sys2Proof.Machine

section steady
variable (s : State)

/-! ### Damage records -/

theorem modRecord_steady (id i : Nat) (f : DamageRecord → DamageRecord) : Steady s (s.modRecord id i f) := by
  refine modPlate_steady s id (fun _ => rfl) (fun _ => rfl) fun p _ =>
    ⟨rfl, rfl, rfl, rfl, rfl, forall₂_refl BandSame.refl _, fun hb => ?_⟩
  obtain ⟨hlen, hcounts⟩ := hb
  exact ⟨by simpa using hlen, hcounts⟩

/-- A record's index says that its plate stands in the table and has room. -/
theorem recordIndex_some {s : State} {id i : Nat} (h : s.recordIndex id = some i) :
    ∃ p, s.plate? id = some p ∧ p.damage.length < 64 ∧ i = p.damage.length := by
  unfold State.recordIndex at h
  split at h
  next p hp =>
    split at h
    next hroom => exact ⟨p, hp, hroom, (Option.some.inj h).symm⟩
    · cases h
  · cases h

theorem addRecord_steady (id : Nat) (r : DamageRecord) : Steady s (s.addRecord id r) := by
  unfold State.addRecord
  split
  next i hi =>
    obtain ⟨p, hp, hroom, -⟩ := recordIndex_some hi
    refine Steady.trans (modPlate_steady s id (f := fun p => { p with damage := p.damage ++ [r] }) (fun _ => rfl)
      (fun _ => rfl) fun q hq => ⟨rfl, rfl, rfl, rfl, rfl, forall₂_refl BandSame.refl _, fun hb => ?_⟩)
      (post_calm _ _).steady
    obtain rfl : p = q := Option.some.inj (hp.symm.trans hq)
    obtain ⟨-, hcounts⟩ := hb
    exact ⟨by simpa using hroom, hcounts⟩
  · refine modPlate_steady s id (fun _ => rfl) (fun _ => rfl) fun p _ =>
      ⟨rfl, rfl, rfl, rfl, rfl, forall₂_refl BandSame.refl _, fun hb => ?_⟩
    obtain ⟨hlen, -, hrest⟩ := hb
    exact ⟨hlen, satAdd_le _ _, hrest⟩

theorem addMarked_steady (id : Nat) (r : DamageRecord) (line : Nat) : Steady s (s.addMarked id r line) :=
  (addRecord_steady s id r).trans (requestMark_calm _ _ _ _).steady

theorem extendRecord_steady (id : Nat) (link : Option Nat) (v : Nat) (f : DamageRecord → DamageRecord) :
    Steady s (s.extendRecord id link v f) := by
  unfold State.extendRecord
  split
  · exact modRecord_steady s _ _ _
  · exact .refl s

theorem closeRecord_steady (id : Nat) (e : Episode) (v : Nat) : Steady s (s.closeRecord id e v) := by
  unfold State.closeRecord
  split
  · exact .refl s
  · exact extendRecord_steady s _ _ _ _

theorem closeRecords_steady (id : Nat) (m : Monitor) (v : Nat) (l : List (Fin 4)) :
    Steady s (l.foldl (fun s k => s.closeRecord id (m.power.get k) v) s) := by
  induction l generalizing s with
  | nil => exact .refl s
  | cons k rest ih => exact (closeRecord_steady s id _ v).trans (ih _)

theorem closeEpisodes_steady : Steady s s.closeEpisodes := by
  unfold State.closeEpisodes
  split
  · exact ((closeRecords_steady s _ _ _ _).trans (closeRecord_steady _ _ _ _)).trans (withMonitor_calm _ _).steady
  · exact .refl s

theorem countLate_steady (id n : Nat) : Steady s (s.modPlate id fun p => { p with late := satAdd p.late n }) := by
  refine modPlate_steady s id (fun _ => rfl) (fun _ => rfl) fun p _ =>
    ⟨rfl, rfl, rfl, rfl, rfl, forall₂_refl BandSame.refl _, fun hb => ?_⟩
  obtain ⟨hlen, hover, hclip, -⟩ := hb
  exact ⟨hlen, hover, hclip, satAdd_le _ _⟩

theorem countClipped_steady (id : Nat) : Steady s (s.countClipped id) := by
  refine modPlate_steady s id (fun _ => rfl) (fun _ => rfl) fun p _ =>
    ⟨rfl, rfl, rfl, rfl, rfl, forall₂_refl BandSame.refl _, fun hb => ?_⟩
  obtain ⟨hlen, hover, -, hlate⟩ := hb
  exact ⟨hlen, hover, satAdd_le _ _, hlate⟩

/-- A band changed in its render damage or its signatures alone. -/
theorem modBand_steady_of_same (id b : Nat) {f : Band → Band} (hf : ∀ x, BandSame x (f x)) :
    Steady s (s.modBand id b f) :=
  modPlate_steady s id (fun _ => rfl) (fun _ => rfl) fun _ _ =>
    ⟨rfl, rfl, rfl, rfl, rfl, forall₂_modify BandSame.refl fun x _ => hf x, fun hb => hb⟩

theorem renderDamage_steady (p : Plate) (h : Header) (c : Cause) (first last : Nat) :
    Steady s (s.renderDamage p h c first last) :=
  (modBand_steady_of_same s _ _ (f := fun b => { b with damaged := true }) fun _ => rfl).trans (addRecord_steady _ _ _)

theorem codeRecord_steady (k : Work) (e : Nat) : Steady s (s.codeRecord k e) := by
  unfold State.codeRecord
  dsimp only
  split
  · exact renderDamage_steady s _ _ _ _ _
  · exact .refl s

theorem contentRecord_steady (k : Work) : Steady s (s.contentRecord k) := by
  unfold State.contentRecord
  dsimp only
  split
  · exact renderDamage_steady s _ _ _ _ _
  · exact .refl s

/-- A decoder that goes on with its own work. -/
theorem stepDecoder_steady {d d' : Decode} (hd : s.decoder = some d) (hwork : d'.work = d.work) :
    Steady s (s.stepDecoder d d') := by
  have hcalm : Calm s (s.withDecoder (some d')) := withDecoder_calm s (by simp [hd, hwork])
  unfold State.stepDecoder
  dsimp only
  split
  · exact hcalm.steady.trans (codeRecord_steady _ _ _)
  · exact hcalm.steady
  · exact hcalm.steady

/-! ### The damage and marks unit -/

theorem newUnderrun_steady (p : Plate) (copy sw : Nat) : Steady s (s.newUnderrun p copy sw) :=
  (addMarked_steady s _ _ _).trans (setRun_calm _ _).steady

theorem mergeUnderrun_steady (p : Plate) (r : UnderrunRun) (sw : Nat) : Steady s (s.mergeUnderrun p r sw) := by
  unfold State.mergeUnderrun
  dsimp only
  split
  · exact (setRun_calm _ _).steady.trans (modRecord_steady _ _ _ _)
  · exact (setRun_calm _ _).steady

theorem noteUnderrun_steady (p : Plate) (copy sw : Nat) : Steady s (s.noteUnderrun p copy sw) := by
  unfold State.noteUnderrun
  split
  · split
    · exact mergeUnderrun_steady s _ _ _
    · exact newUnderrun_steady s _ _ _
  · exact newUnderrun_steady s _ _ _

theorem setSignature_steady (p : Plate) (copy b line : Nat) (sig : Crc32) :
    Steady s (s.setSignature p copy b line sig) := by
  have hset : Steady s ((s.withMarks { s.marks with sig := none }).modBand p.id b fun x => { x with lastSig := some sig }) :=
    (withMarks_calm s (x := { s.marks with sig := none }) fun h => h.of_queue rfl).steady.trans
      (modBand_steady_of_same _ _ _ (f := fun x => { x with lastSig := some sig }) fun _ => rfl)
  unfold State.setSignature
  dsimp only
  repeat' split
  · exact hset
  · exact hset.trans (addMarked_steady _ _ _ _)
  · exact hset

theorem feedLine_steady (p : Plate) (copy line : Nat) (bytes : List Byte) : Steady s (s.feedLine p copy line bytes) := by
  unfold State.feedLine
  dsimp only
  repeat' split
  · exact setSignature_steady s _ _ _ _ _
  · refine (withMarks_calm s ?_).steady
    exact fun h => h.of_queue rfl
  · exact .refl s

theorem feedLines_steady (p : Plate) (copy line : Nat) (lines : List (List Byte)) :
    Steady s (feedLines p copy line lines s) := by
  induction lines generalizing line s with
  | nil => exact .refl s
  | cons bytes rest ih =>
    unfold feedLines
    refine Steady.trans ?_ (ih _ _)
    split
    · exact feedLine_steady s _ _ _ _
    · exact .refl s

theorem laneStep_steady (id sw : Nat) : Steady s (s.laneStep id sw) := by
  unfold State.laneStep
  split
  next r rest hlane hq =>
    have hdraw : Steady s (s.withMarks { s.marks with queue := rest, lane := some ⟨r.pattern, 4 * sw⟩ }) :=
      (withMarks_calm s fun h => by
        obtain ⟨hlen, hord⟩ := h
        rw [hq] at hlen hord
        exact ⟨Nat.le_of_succ_le hlen, hord.of_cons⟩).steady
    dsimp only
    repeat' split
    · exact hdraw.trans (modRecord_steady _ _ _ _)
    · exact hdraw
    · exact .refl s
  all_goals exact .refl s

theorem laneAfter_ordered {m : Marks} (h : m.Ordered) (sw : Nat) : (m.laneAfter sw).Ordered := by
  unfold Marks.laneAfter
  repeat' split
  all_goals exact h

theorem handSwath_steady (t : Taken) (p : Plate) (sw : Nat) (underrun : Bool) (lines : List (List Byte)) :
    Steady s (s.handSwath t p sw underrun lines) := by
  unfold State.handSwath
  dsimp only
  refine Steady.trans ?_ (((withPins_calm _ _).trans (withMarks_calm _ fun h => laneAfter_ordered h sw)).steady)
  refine Steady.trans ?_ (laneStep_steady _ _ _)
  refine Steady.trans ?_ (feedLines_steady _ _ _ _ _)
  split
  · exact noteUnderrun_steady s _ _ _
  · exact .refl s

/-! ### The monitor's records -/

theorem blindFailure_steady (t : Taken) (p : Plate) (o : RefOutcome) (n1 : Nat) : Steady s (s.blindFailure t p o n1) := by
  unfold State.blindFailure
  dsimp only
  split
  · exact (addMarked_steady s _ _ _).trans ((withMonitor_calm _ _).trans (post_calm _ _)).steady
  · exact extendRecord_steady s _ _ _ _

theorem judgeRef_steady (o : RefOutcome) (n1 : Nat) : Steady s (s.judgeRef o n1) := by
  unfold State.judgeRef
  repeat' split
  · exact (closeRecord_steady s _ _ _).trans (withMonitor_calm _ _).steady
  · exact blindFailure_steady s _ _ _ _
  · exact .refl s

theorem judgeEpisode_steady (t : Taken) (p : Plate) (k : Fin 4) (status : BeamStatus) (pi : Option Nat) :
    Steady s (s.judgeEpisode t p k status pi) := by
  unfold State.judgeEpisode
  dsimp only
  repeat' split
  · exact (closeRecord_steady s _ _ _).trans (withMonitor_calm _ _).steady
  · exact (addMarked_steady s _ _ _).trans (withMonitor_calm _ _).steady
  · exact extendRecord_steady s _ _ _ _

theorem judge_steady (k : Fin 4) (status : BeamStatus) (pi : Option Nat) : Steady s (s.judge k status pi) := by
  unfold State.judge
  dsimp only
  split
  · exact (judgeEpisode_steady s _ _ _ _ _).trans (withMonitor_calm _ _).steady
  · exact (withMonitor_calm _ _).steady

theorem endRef_steady (o : RefOutcome) (ticks n1 : Nat) : Steady s (s.endRef o ticks n1) := by
  unfold State.endRef
  dsimp only
  split
  · exact ((withMonitor_calm s _).trans (scanAfterRef_calm _ _)).steady
  · exact (withMonitor_calm s _).steady.trans (judgeRef_steady _ _ _)

theorem endBeam_steady (k : Fin 4) (ticks pulses : Nat) (n2 : Option Nat) : Steady s (s.endBeam k ticks pulses n2) := by
  unfold State.endBeam
  dsimp only
  repeat' split
  · exact ((withMonitor_calm s _).trans (scanAfterBeam_calm _ _ _ _ _ _ _)).steady
  · exact (withMonitor_calm s _).steady.trans (judge_steady _ _ _ _)
  · exact (withMonitor_calm s _).steady

theorem cutStep_steady (ticks pulses : Nat) : Steady s (s.cutStep ticks pulses) := by
  unfold State.cutStep
  split
  · exact .refl s
  · exact endRef_steady s _ _ _
  · exact endBeam_steady s _ _ _ _

/-! ### A refused OPEN -/

theorem refuseOpen_steady (r : RawHeader) (reason : Refuse) (hi : s.feed.intake.opened = []) :
    Steady s (s.refuseOpen r reason) := by
  have hskip : Calm s (s.setIntake .skipping) := setIntake_calm s hi.symm
  unfold State.refuseOpen
  dsimp only
  split
  · exact (hskip.trans (count_calm _ _)).steady
  · refine Steady.trans ?_ (post_calm _ _).steady
    split
    · exact (hskip.trans (count_calm _ _)).steady.trans (countLate_steady _ _ _)
    · exact (hskip.trans (count_calm _ _)).steady

/-! ### The bands of a copy -/

/-- A READY band goes under exposure (R7). -/
theorem ready_exposed_step (live : Bool) {b : Band} (hb : b.state = .ready) :
    BandStep live live b { b with state := .exposing } where
  nextSeq := rfl
  rendering := rfl
  buffer := .inl rfl
  needs _ h := by simpa [Band.needs, hb] using h
  going h := by simp at h
  shaped h := by
    obtain ⟨hblank, -, -, hdone, hrend, hbuf⟩ := h
    unfold Band.Shaped
    simp_all

theorem starved_step (live : Bool) {b : Band} (hb : b.state = .empty ∨ b.state = .filling) :
    BandStep live live b b.starved where
  nextSeq := rfl
  rendering := rfl
  buffer := by
    unfold Band.starved
    by_cases hr : b.rendering = true
    · exact .inl (if_pos hr)
    · exact .inr ⟨if_neg hr, fun _ => by simpa using hr⟩
  needs _ h := by simp [Band.needs, Band.starved] at h
  going h := hb
  shaped h := by
    obtain ⟨hblank, -, hbelow, -, -, -⟩ := h
    have hlt := hbelow (by tauto)
    unfold Band.Shaped Band.starved
    refine ⟨⟨nofun, fun h0 => ?_⟩, nofun, fun _ => hlt, fun h => by simp at h, fun _ => .inr (.inr rfl), fun h => .inl ?_⟩
    · dsimp only at h0
      omega
    · by_contra hr
      simp [hr] at h

theorem fetched_step (live final : Bool) (b : Band) : BandStep live live b (b.fetched final) := by
  unfold Band.fetched
  split
  next hb =>
    split
    · refine ⟨rfl, rfl, .inr ⟨rfl, fun h => ?_⟩, fun _ h => by simp [Band.needs] at h, fun h => by simp at h, fun h => ?_⟩
      · obtain ⟨-, -, -, -, hrend, -⟩ := h
        by_contra hr
        simpa [hb] using hrend (by simpa using hr)
      · obtain ⟨hblank, -, -, hdone, hrend, -⟩ := h
        unfold Band.Shaped
        simp_all
    · refine ⟨rfl, rfl, .inl rfl, fun _ h => ?_, fun h => by simp at h, fun h => ?_⟩
      · simpa [Band.needs, hb] using h
      · obtain ⟨hblank, -, -, hdone, hrend, hbuf⟩ := h
        unfold Band.Shaped
        simp_all
  · exact .refl live b

theorem fetched_decided {more : Prop} {final : Bool} (hmore : final = false → more) {b : Band} (h : b.Decided more) :
    (b.fetched final).Decided more := by
  unfold Band.fetched
  split
  · split
    · simp [Band.Decided]
    next hf => simp [Band.Decided, hmore (by simpa using hf)]
  · exact h

theorem fetched_buffers (final : Bool) (b : Band) (n : Nat) :
    (b.fetched final).buffer.toList.count n + (b.fetchedBuffer final).toList.count n = b.buffer.toList.count n := by
  unfold Band.fetched Band.fetchedBuffer
  by_cases hb : b.state = .exposing <;> cases final <;> simp [hb]

/-- One band of a plate moved on in a copy, giving back the buffers `freed`. -/
theorem modBand_steady {p : Plate} {i : Nat} {b : Band} {f : Band → Band} {freed : List Nat}
    (hp : s.plate? p.id = some p) (hb : p.bands[i]? = some b) (hstep : BandStep p.live p.live b (f b))
    (hfreed : ∀ n, (f b).buffer.toList.count n + freed.count n = b.buffer.toList.count n)
    (hdec : ∀ t, s.engine.taken = some t → t.plate = p.id → b.Decided (t.copy < p.copies) →
      (f b).Decided (t.copy < p.copies)) :
    Steady s ((s.modBand p.id i f).returnBuffers freed) := by
  have hband : ∀ a, p.bands[i]? = some a → a = b := fun a ha => Option.some.inj (ha.symm.trans hb)
  refine Steady.life (p := p) (f := fun p => p.modBand i f) (fun _ => rfl) (fun _ => rfl)
    ⟨hp, fun hbd => hbd, rfl, rfl, ⟨rfl, rfl, fun hl => hl, ?_, fun n => count_buffers_modify (y := 0) hb (hfreed n)⟩, fun t ht hplate _ => ?_⟩
  · exact forall₂_modify (.refl _) fun a ha => hband a ha ▸ hstep
  · exact forall₂_modify (fun _ h => h) fun a ha => hband a ha ▸ hdec t ht hplate

/-- The plate taken, found in the table by its own id. -/
theorem takenPlate?_some {s : State} {t : Taken} {p : Plate} (h : s.takenPlate? = some (t, p)) :
    s.engine.taken = some t ∧ p.id = t.plate ∧ s.plate? p.id = some p := by
  unfold State.takenPlate? at h
  obtain ⟨t', ht, h⟩ := Option.bind_eq_some_iff.mp h
  obtain ⟨p', hp, h⟩ := Option.map_eq_some_iff.mp h
  cases h
  obtain ⟨hid, -⟩ := plate?_some hp
  exact ⟨ht, hid, hid ▸ hp⟩

theorem discardLate_steady (id b copy : Nat) : Steady s (s.discardLate id b copy) := by
  unfold State.discardLate
  dsimp only
  split
  · exact (discard_calm s _).steady.trans (countLate_steady _ _ _)
  · exact ((discard_calm s _).steady.trans (countLate_steady _ _ _)).trans (post_calm _ _).steady

theorem starve_steady {p : Plate} {copy i : Nat} {b : Band} (hp : s.plate? p.id = some p) (hb : p.bands[i]? = some b)
    (hstate : b.state = .empty ∨ b.state = .filling) : Steady s (s.starve p copy i b) := by
  have hband : Steady s ((s.modBand p.id i Band.starved).returnBuffers b.starvedBuffer) :=
    modBand_steady s hp hb (starved_step _ hstate)
      (fun n => by unfold Band.starved Band.starvedBuffer; by_cases hr : b.rendering = true <;> simp [hr])
      fun _ _ _ _ => .inr (.inl rfl)
  unfold State.starve
  dsimp only
  exact ((hband.trans (addMarked_steady _ _ _ _)).trans (discardLate_steady _ _ _ _)).trans
    ((interrupt_calm _ _).trans (releaseRing_calm _)).steady

theorem markDamaged_steady (p : Plate) (b : Nat) : Steady s (s.markDamaged p b) := by
  unfold State.markDamaged
  split <;> exact (requestMark_calm _ _ _ _).steady

theorem decideBand_steady (b : Nat) : Steady s (s.decideBand b) := by
  unfold State.decideBand
  split
  next t p ht =>
    obtain ⟨-, -, hp⟩ := takenPlate?_some ht
    split
    next band hb =>
      split
      next hready =>
        have hexp : Steady s (s.modBand p.id b fun x => { x with state := .exposing }) := by
          have := modBand_steady s (f := fun x => { x with state := .exposing }) (freed := []) hp hb
            (ready_exposed_step _ hready) (fun n => by simp) fun _ _ _ _ => .inr (.inr (.inl rfl))
          rwa [returnBuffers_nil] at this
        dsimp only
        split
        · exact hexp.trans (markDamaged_steady _ _ _)
        · exact hexp
      next hempty => exact starve_steady s hp hb (.inl hempty)
      next hfilling => exact starve_steady s hp hb (.inr hfilling)
      · exact (requestMark_calm _ _ _ _).steady
      all_goals exact .refl s
    · exact .refl s
  · exact .refl s

theorem endBandFetch_steady {t : Taken} {p : Plate} (ht : s.takenPlate? = some (t, p)) (b : Nat) :
    Steady s (s.endBandFetch p t.copy b) := by
  obtain ⟨htaken, hid, hp⟩ := takenPlate?_some ht
  unfold State.endBandFetch
  split
  next band hb =>
    refine modBand_steady s hp hb (fetched_step _ _ _) (fetched_buffers _ _) fun t' ht' _ hd => ?_
    obtain rfl : t = t' := Option.some.inj (htaken.symm.trans ht')
    exact fetched_decided (fun hf => by simpa using hf) hd
  · exact .refl s

theorem endCopyBands_steady {p : Plate} (hp : s.plate? p.id = some p) {final : Bool}
    (hfinal : final = false → p.completed + 1 < p.copies) : Steady s (s.endCopyBands p final) := by
  refine Steady.life (p := p) (f := fun q => { q with bands := q.bands.map (Band.fetched final) }) (fun _ => rfl)
    (fun _ => rfl) ⟨hp, fun hbd => hbd, rfl, rfl, ⟨rfl, rfl, fun hl => hl, ?_, fun n => ?_⟩, fun t _ _ hcopy => ?_⟩
  · exact List.forall₂_map_right_iff.mpr (List.forall₂_same.mpr fun b _ => fetched_step _ _ b)
  · exact count_buffers_map fun b _ => fetched_buffers final b n
  · rw [← hcopy] at hfinal
    exact List.forall₂_map_right_iff.mpr (List.forall₂_same.mpr fun b _ => fetched_decided hfinal)

end steady

end Sys2Proof.Machine

/-! The life of a plate and of the engine's work on it: the taking of the head plate, the end of a copy, of a plate, and a
drum fault. -/

namespace Sys2Proof.Machine

/-! ### The engine alone -/

section engine
variable (s : State)

theorem withEngine_steady (e : Engine) (htaken : e.taken = s.engine.taken) (hidle : e.state = .idle ↔ s.engine.state = .idle) :
    Steady s (s.withEngine e) where
  link := id
  ring := id
  table := id
  marks := id
  stores := id
  segs hs := hs.same rfl rfl rfl rfl rfl
  queue hs := hs.congr rfl htaken hidle
  core hs :=
    { queue := hs.queue.congr rfl htaken hidle
      segs := hs.segs.same rfl rfl rfl rfl rfl
      bands := hs.bands.congr rfl
      renders := hs.renders.congr rfl rfl fun e he hl => ⟨e, he, hl, rfl, rfl⟩
      buffers := hs.buffers.congr rfl rfl rfl
      reservation := hs.reservation.congr rfl rfl }
  taken := htaken
  decided _ _ hd := hd.congr rfl htaken

/-- A calm change beside another engine. -/
theorem Calm.withEngine {s u : State} (h : Calm s u) (e : Engine) : Calm (s.withEngine e) (u.withEngine e) where
  link := h.link
  ring := h.ring
  marks := h.marks
  stores := h.stores
  segs hs := (h.segs (hs.same rfl rfl rfl rfl rfl)).same rfl rfl rfl rfl rfl
  entries := h.entries
  pool := h.pool
  table := h.table
  decoder := h.decoder
  screener := h.screener
  engine := rfl

theorem marks_reset_ordered : Marks.Ordered .reset := ⟨Nat.zero_le _, List.Pairwise.nil⟩

theorem stopEngine_steady : Steady s s.stopEngine := by
  refine (((withPins_calm s _).steady.trans (closeEpisodes_steady s.laserOff)).trans
    ((withMonitor_calm _ _).trans (withMarks_calm _ fun _ => marks_reset_ordered)).steady).trans
    (withEngine_steady _ _ ?_ ?_) <;> simp [Engine.stop]

/-- A stopped engine's read, if one is in progress, is to be discarded. -/
theorem stop_read {e : Engine} {r : FetchRead} (h : e.stop.read = some r) : r.fate = .discard := by
  obtain ⟨r', -, rfl⟩ := Option.map_eq_some_iff.mp h
  rfl

theorem fifoLaw_of_nil {e : Engine} (h : e.fifo = []) : e.FifoLaw := by
  unfold Engine.FifoLaw
  rw [h]
  split <;> simp

theorem stop_fetchOk {e : Engine} (h : e.FetchOk) : e.stop.FetchOk := by
  obtain ⟨htaken, -⟩ := h
  refine ⟨fun t ht => ?_, fun r hr => .inl (stop_read hr)⟩
  obtain ⟨hlead, hswath, -⟩ := htaken t ht
  exact ⟨fun hw => ⟨(hlead hw).1, rfl⟩, hswath, nofun⟩

theorem stopEngine_keeps : Keeps s s.stopEngine := by
  refine (stopEngine_steady s).keeps (fun _ => ?_) (fun h => ?_) ?_ <;> rw [stopEngine_engine]
  · exact fifoLaw_of_nil rfl
  · exact stop_fetchOk h
  · exact Nat.le_refl _

/-! ### The lead -/

theorem leaveLead_fetchOk {e : Engine} (hlead : e.state = .waitLead) (h : e.FetchOk) :
    ({ e with state := .waitDrum } : Engine).startFetch.FetchOk := by
  obtain ⟨htaken, hread⟩ := h
  refine ⟨fun t ht => ?_, fun r hr => ?_⟩
  · obtain ⟨hpos, hswath, hfifo⟩ := htaken t ht
    rw [(hpos hlead).1] at hswath hfifo
    exact ⟨nofun, hswath, hfifo⟩
  · rcases hread r hr with hd | ⟨ht, hline⟩
    · exact .inl hd
    · rw [((htaken _ ht).1 hlead).1] at hline
      exact .inr ⟨ht, hline⟩

theorem leaveLead_keeps (t : Taken) (p : Plate) (hlead : s.engine.state = .waitLead) : Keeps s (s.leaveLead t p) := by
  have hstart (u : State) (hu : u.engine.state = .waitLead) :
      Keeps u (u.withEngine { u.engine with state := .waitDrum }.startFetch) := by
    exact (withEngine_steady u ({ u.engine with state := .waitDrum } : Engine).startFetch rfl
      (by simp [hu, Engine.startFetch, Engine.testUrgency])).keeps (fun h => h) (leaveLead_fetchOk hu) (Nat.zero_le _)
  unfold State.leaveLead
  dsimp only
  split
  · exact (requestMark_calm s _ _ _).keeps.trans (hstart _ (by simpa using hlead))
  · exact hstart s hlead

theorem settleLead_keeps : Keeps s s.settleLead := by
  unfold State.settleLead
  split
  · split
    next hc => exact leaveLead_keeps s _ _ hc.1
    · exact .refl s
  · exact .refl s

end engine

/-! ### The queue's law by the records found -/

theorem mem_iff_plate? {s : State} (hnodup : (s.table.plates.map Plate.id).Nodup) (p : Plate) :
    p ∈ s.table.plates ↔ s.plate? p.id = some p := by
  constructor
  · intro hp
    rcases hf : s.plate? p.id with _ | q
    · exact absurd rfl ((plate?_none s p.id).mp hf p hp)
    · obtain ⟨hid, hq⟩ := plate?_some hf
      rw [List.inj_on_of_nodup_map hnodup hq hp hid]
  · exact fun h => (plate?_some h).2

theorem queueLaw_iff (s : State) : s.QueueLaw ↔ (s.table.plates.map Plate.id).Nodup ∧ s.table.queue.Nodup
    ∧ (∀ id, id ∈ s.table.queue ↔ ∃ p, s.plate? id = some p ∧ p.live = true)
    ∧ (∀ id p, s.plate? id = some p → p.state = .active →
        s.engine.taken.map Taken.plate = some id ∧ s.table.queue.head? = some id)
    ∧ (∀ t, s.engine.taken = some t → ∃ p, s.plate? t.plate = some p ∧ p.state = .active)
    ∧ (s.engine.state = .idle ↔ s.engine.taken = none) := by
  unfold State.QueueLaw
  refine and_congr_right fun hnodup => and_congr_right fun _ => ?_
  have hex (id : Nat) (P : Plate → Prop) :
      (∃ p ∈ s.table.plates, p.id = id ∧ P p) ↔ ∃ p, s.plate? id = some p ∧ P p := by
    constructor
    · rintro ⟨p, hp, rfl, h⟩
      exact ⟨p, (mem_iff_plate? hnodup p).mp hp, h⟩
    · rintro ⟨p, hp, h⟩
      obtain ⟨hid, hmem⟩ := plate?_some hp
      exact ⟨p, hmem, hid, h⟩
  have hall (P : Nat → Plate → Prop) : (∀ p ∈ s.table.plates, P p.id p) ↔ ∀ id p, s.plate? id = some p → P id p := by
    constructor
    · intro h id p hp
      obtain ⟨rfl, hmem⟩ := plate?_some hp
      exact h p hmem
    · exact fun h p hp => h p.id p ((mem_iff_plate? hnodup p).mp hp)
  rw [hall fun id p => p.state = .active →
    s.engine.taken.map Taken.plate = some id ∧ s.table.queue.head? = some id]
  simp only [hex]

theorem head?_filter_of_keep {k : Nat → Bool} {q : List Nat} {id : Nat} (h : q.head? = some id) (hk : k id = true) :
    (q.filter k).head? = some id := by
  cases q with
  | nil => simp at h
  | cons a r =>
    obtain rfl : a = id := by simpa using h
    simp [hk]

section replaces
variable {s u : State} {p p' : Plate} {freed : List Nat} {keep : Nat → Bool}

theorem Replaces.ids (h : Replaces s u p p' freed keep) : u.table.plates.map Plate.id = s.table.plates.map Plate.id := by
  obtain ⟨l, r, hs, hu, -, -⟩ := h.plates
  rw [hs, hu]
  simp [h.id]

/-- The queue's law after a record is replaced: the queue keeps the id where the new record is live. -/
theorem Replaces.queueLaw (h : Replaces s u p p' freed keep) (hs : s.QueueLaw) (hp : p.live = true)
    (hkeep : ∀ id, keep id = (decide (id ≠ p.id) || p'.live))
    (hactive : ∀ id x, u.plate? id = some x → x.state = .active →
      u.engine.taken.map Taken.plate = some id ∧ s.table.queue.head? = some id)
    (htaken : ∀ t, u.engine.taken = some t → ∃ x, u.plate? t.plate = some x ∧ x.state = .active)
    (hidle : u.engine.state = .idle ↔ u.engine.taken = none) : u.QueueLaw := by
  obtain ⟨hnodup, hqueue, hmem, -, -, -⟩ := (queueLaw_iff s).mp hs
  refine (queueLaw_iff u).mpr ⟨by rwa [h.ids], by rw [h.queue]; exact hqueue.filter _, fun id => ?_, fun id x hx hxa => ?_,
    htaken, hidle⟩
  · rw [h.queue, List.mem_filter, hmem, hkeep, h.plate?]
    by_cases hid : id = p.id
    · subst hid
      simp [h.found, hp]
    · simp [hid]
  · obtain ⟨htk, hhead⟩ := hactive id x hx hxa
    rw [h.queue]
    refine ⟨htk, head?_filter_of_keep hhead ?_⟩
    rw [hkeep]
    rw [h.plate?] at hx
    split at hx
    · obtain rfl := Option.some.inj hx
      simp [Plate.live, hxa]
    next hid => simp [hid]

end replaces

/-! ### A plate's record takes its outcome -/

/-- The record of plate `id` changed, buffers given back, the queue cut to the ids that `keep` names, and the engine's
context. -/
def State.outcome (s : State) (id : Nat) (f : Plate → Plate) (freed : List Nat) (keep : Nat → Bool) (e : Engine) : State :=
  (((s.modPlate id f).withTable ⟨(s.modPlate id f).table.plates, s.table.queue.filter keep⟩).returnBuffers freed).withEngine e

theorem withEngine_modPlate (s : State) (id : Nat) (f : Plate → Plate) (e : Engine) :
    (s.modPlate id f).withEngine e = s.outcome id f [] (fun _ => true) e := by
  simp [State.outcome, State.returnBuffers, State.modPlate, State.withTable, State.withPool, State.withEngine]

section outcome
variable {s : State} {p : Plate} {f : Plate → Plate} {freed : List Nat} {keep : Nat → Bool} {e : Engine}

theorem outcome_replaces (hnodup : (s.table.plates.map Plate.id).Nodup) (hp : s.plate? p.id = some p)
    (hid : (f p).id = p.id) : Replaces s (s.outcome p.id f freed keep e) p (f p) freed keep where
  found := hp
  id := hid
  plates := by
    obtain ⟨hpid, l, r, hlr, hl, hr⟩ := plates_split hnodup hp
    exact ⟨l, r, hlr, modPlate_plates_of_split f hpid hlr hl hr, hl, hr⟩
  queue := rfl
  pool := rfl
  works := rfl
  entries := rfl

/-- What the laws ask of a plate's outcome. -/
structure Outcome (s : State) (p : Plate) (f : Plate → Plate) (freed : List Nat) (keep : Nat → Bool) (e : Engine) : Prop where
  found : s.plate? p.id = some p
  id : ∀ x, (f x).id = x.id
  bounded : p.Bounded → (f p).Bounded
  step : s.Sound → PlateStep p (f p) freed
  kept : s.QueueLaw → (f p).live = p.live ∨ keep p.id = false
  queue : s.QueueLaw → (s.outcome p.id f freed keep e).QueueLaw
  fifo : s.engine.FifoLaw → e.FifoLaw
  fetch : s.QueueLaw → s.engine.FetchOk → e.FetchOk
  decided : s.QueueLaw → s.DecidedTo s.engine.fetchPos → (s.outcome p.id f freed keep e).DecidedTo e.fetchPos

theorem Outcome.keeps (h : Outcome s p f freed keep e) : Keeps s (s.outcome p.id f freed keep e) where
  link hs := hs
  ring hs := hs
  table hs := hs.modPlate p.id h.id fun q hq hb => by
    obtain rfl : p = q := Option.some.inj (h.found.symm.trans hq)
    exact h.bounded hb
  marks hs := hs
  fifo := h.fifo
  stores hs := hs
  segs hs := hs.same rfl rfl rfl rfl rfl
  queue := h.queue
  sound hs := by
    obtain ⟨hcore, hok, hdecided⟩ := (sound_iff s).mp hs
    have hrep := outcome_replaces (freed := freed) (keep := keep) (e := e) hcore.queue.1 h.found (h.id p)
    exact (sound_iff _).mpr ⟨hrep.core (h.step hs) (h.kept hcore.queue) hcore (h.queue hcore.queue) (hcore.segs.same rfl rfl rfl rfl rfl),
      h.fetch hcore.queue hok, h.decided hcore.queue hdecided⟩

end outcome

/-! ### The taking of the head plate (R100) -/

section life
variable (s : State)

theorem taken_none_of_idle {s : State} (h : s.QueueLaw) (hidle : s.engine.state = .idle) : s.engine.taken = none := by
  obtain ⟨-, -, -, -, -, hiff⟩ := h
  exact hiff.mp hidle

/-- The engine takes a LOADING plate at the head of the queue. -/
theorem taking_outcome {p : Plate} (hhead : s.table.queue.head? = some p.id) (hp : s.plate? p.id = some p)
    (hidle : s.engine.state = .idle) (hstate : p.state = .loading) :
    Outcome s p (fun p => { p with state := .active }) [] (fun _ => true) (s.engine.take ⟨p.id, p.completed + 1⟩) := by
  have hlive : p.live = true := by simp [Plate.live, hstate]
  have hrep (h : s.QueueLaw) := outcome_replaces (freed := []) (keep := fun _ => true)
    (f := fun p => { p with state := .active }) (e := s.engine.take ⟨p.id, p.completed + 1⟩) h.1 hp rfl
  refine ⟨hp, fun _ => rfl, id, fun _ => ⟨rfl, rfl, fun _ => hlive, ?_, fun n => by simp⟩,
    fun _ => .inl (by simp [Plate.live, hstate]),
    fun h => ?_, fun _ => fifoLaw_of_nil rfl, fun h hok => ?_, fun h _ t ht => ?_⟩
  · rw [hlive]
    exact forall₂_refl (BandStep.refl true) _
  · obtain ⟨-, -, -, hactive, -, -⟩ := (queueLaw_iff s).mp h
    refine (hrep h).queueLaw h hlive (fun id => by simp [Plate.live]) (fun id x hx hxa => ?_) (fun t ht => ?_)
      (by simp [State.outcome, Engine.take])
    · rw [(hrep h).plate?] at hx
      split at hx
      next hid => exact ⟨by rw [hid]; rfl, by rw [hid, hhead]⟩
      · have := (hactive id x hx hxa).1
        rw [taken_none_of_idle h hidle] at this
        cases this
    · obtain rfl : (⟨p.id, p.completed + 1⟩ : Taken) = t := Option.some.inj ht
      exact ⟨_, (hrep h).plate?_self, rfl⟩
  · obtain ⟨-, hread⟩ := hok
    refine ⟨fun t _ => ⟨fun _ => ⟨rfl, rfl⟩, Nat.zero_le _, nofun⟩, fun r hr => ?_⟩
    rcases hread r hr with hd | ⟨ht, -⟩
    · exact .inl hd
    · rw [taken_none_of_idle h hidle] at ht
      cases ht
  · obtain rfl : (⟨p.id, p.completed + 1⟩ : Taken) = t := Option.some.inj ht
    exact ⟨_, (hrep h).plate?_self, rfl, fun i b _ hi => absurd hi (Nat.not_lt_zero _)⟩

theorem takeHead_keeps : Keeps s s.takeHead := by
  unfold State.takeHead
  split
  next p hp =>
    obtain ⟨id, hhead, hfound⟩ := Option.bind_eq_some_iff.mp hp
    obtain ⟨rfl, -⟩ := plate?_some hfound
    split
    next hc =>
      obtain ⟨hidle, hstate, -⟩ := hc
      have htaking := (taking_outcome s hhead hfound hidle hstate).keeps
      rw [← withEngine_modPlate] at htaking
      exact (htaking.trans (abandonScan_calm _).keeps).trans (settleLead_keeps _)
    · exact .refl s
  · exact .refl s

end life

end Sys2Proof.Machine

/-! The ends: of a plate, of a copy, and of a copy by a drum fault. -/

namespace Sys2Proof.Machine

/-! ### The engine's way into IDLE -/

/-- The engine as it enters IDLE (R104). -/
def Engine.idled (e : Engine) : Engine :=
  { e with state := .idle, taken := none, active := e.waiting.getD e.active, waiting := none }

theorem enterIdle_eq (s : State) : s.enterIdle = s.withEngine s.engine.idled := rfl

/-- A read in progress is to be discarded. -/
def Engine.NoRead (e : Engine) : Prop := ∀ r, e.read = some r → r.fate = .discard

theorem stop_noRead (e : Engine) : e.stop.NoRead := fun _ => stop_read

/-- The engine as a plate with an id leaves the queue: IDLE where it had taken that plate, and untouched where it had not. -/
def State.Leaves (s : State) (e : Engine) (id : Nat) : Prop :=
  s.engine.taken.map Taken.plate = some id ∧ e = s.engine.idled ∧ s.engine.NoRead
    ∨ s.engine.taken.map Taken.plate ≠ some id ∧ e = s.engine

section leaves
variable {s : State} {p : Plate} {f : Plate → Plate} {freed : List Nat} {keep : Nat → Bool} {e : Engine}

/-! ### A plate that is not, or no longer, under the engine -/

theorem State.Leaves.queueLaw (he : s.Leaves e p.id) (hs : s.QueueLaw) (hp : s.plate? p.id = some p)
    (hid : (f p).id = p.id) (hlive : p.live = true) (hstate : (f p).state ≠ .active)
    (hkeep : ∀ id, keep id = (decide (id ≠ p.id) || (f p).live)) : (s.outcome p.id f freed keep e).QueueLaw := by
  have hrep := outcome_replaces (freed := freed) (keep := keep) (e := e) hs.1 hp hid
  obtain ⟨-, -, -, hactive, htaken, hidle⟩ := (queueLaw_iff s).mp hs
  refine hrep.queueLaw hs hlive hkeep (fun id x hx hxa => ?_) (fun t ht => ?_) ?_
  · rw [hrep.plate?] at hx
    split at hx
    · exact absurd hxa (Option.some.inj hx ▸ hstate)
    next hne =>
      obtain ⟨htk, hhead⟩ := hactive id x hx hxa
      rcases he with ⟨htp, -, -⟩ | ⟨-, rfl⟩
      · rw [htp] at htk
        exact absurd (Option.some.inj htk).symm hne
      · exact ⟨htk, hhead⟩
  · rcases he with ⟨-, rfl, -⟩ | ⟨hnot, rfl⟩
    · cases ht
    · obtain ⟨x, hx, hxa⟩ := htaken t ht
      have hne : t.plate ≠ p.id := fun hc => hnot (by rw [show s.engine.taken = some t from ht, ← hc]; rfl)
      exact ⟨x, by rw [hrep.plate?_of_ne hne, hx], hxa⟩
  · rcases he with ⟨-, rfl, -⟩ | ⟨-, rfl⟩
    · exact ⟨fun _ => rfl, fun _ => rfl⟩
    · exact hidle

theorem State.Leaves.outcome (he : s.Leaves e p.id) (hp : s.plate? p.id = some p) (hid : ∀ x, (f x).id = x.id)
    (hlive : s.QueueLaw → p.live = true) (hstate : (f p).state ≠ .active)
    (hkeep : ∀ id, keep id = (decide (id ≠ p.id) || (f p).live)) (hbounded : p.Bounded → (f p).Bounded)
    (hstep : s.Sound → p.live = true → PlateStep p (f p) freed) : Outcome s p f freed keep e where
  found := hp
  id := hid
  bounded := hbounded
  step hs := hstep hs (hlive hs.1)
  kept hs := by
    rcases hl : (f p).live with _ | _
    · exact .inr (by simp [hkeep, hl])
    · exact .inl (hlive hs).symm
  queue hs := he.queueLaw hs hp (hid p) (hlive hs) hstate hkeep
  fifo h := by rcases he with ⟨-, rfl, -⟩ | ⟨-, rfl⟩ <;> exact h
  fetch _ h := by
    rcases he with ⟨-, rfl, hno⟩ | ⟨-, rfl⟩
    · exact ⟨nofun, fun r hr => .inl (hno r hr)⟩
    · exact h
  decided hs h t ht := by
    rcases he with ⟨-, rfl, -⟩ | ⟨hnot, rfl⟩
    · cases ht
    · have hrep := outcome_replaces (freed := freed) (keep := keep) (e := s.engine) hs.1 hp (hid p)
      obtain ⟨x, hx, hrest⟩ := h t ht
      have hne : t.plate ≠ p.id := fun hc => hnot (by rw [show s.engine.taken = some t from ht, ← hc]; rfl)
      exact ⟨x, by rw [hrep.plate?_of_ne hne, hx], hrest⟩

end leaves

/-! ### The end of a plate -/

theorem ended_step (b : Band) : BandStep true false b b.ended where
  nextSeq := rfl
  rendering := rfl
  buffer := by
    unfold Band.ended
    by_cases hr : b.rendering = true
    · exact .inl (if_pos hr)
    · exact .inr ⟨if_neg hr, fun _ => by simpa using hr⟩
  needs h := by simp at h
  going h := by
    unfold Band.ended at h
    by_cases hb : b.state = .exposing <;> simp [hb] at h
    exact h
  shaped h := by
    obtain ⟨hblank, hempty, hbelow, hdone, hrend, hbuf⟩ := h
    unfold Band.Shaped Band.ended
    by_cases hb : b.state = .exposing <;> by_cases hr : b.rendering = true <;> simp_all

theorem ended_buffers (b : Band) (n : Nat) :
    b.ended.buffer.toList.count n + (if b.rendering then none else b.buffer).toList.count n = b.buffer.toList.count n := by
  unfold Band.ended
  by_cases hr : b.rendering = true <;> simp [hr]

/-- A plate whose record stands as `q` ends; `p` is the record as the command found it. -/
theorem endPlate_keeps (s : State) {p q : Plate} {state : PlateState} (countLate : Bool) {e : Engine}
    (hq : s.plate? p.id = some q) (hbands : p.bands = q.bands) (hlive : s.QueueLaw → q.live = true)
    (hstate : state = .aborted ∨ state = .faulted) (he : s.Leaves e p.id) :
    Keeps s ((s.endPlate p state countLate).withEngine e) := by
  obtain ⟨hid, -⟩ := plate?_some hq
  rw [← hid] at hq he
  let n := if countLate then (s.queuedOf (ofPlate p.id)).length else 0
  let f (q : Plate) : Plate :=
    { q with state := state, authorised := false, bands := q.bands.map Band.ended, late := satAdd q.late n }
  have hdead : (f q).live = false := by rcases hstate with rfl | rfl <;> rfl
  have hstep (hlive : q.live = true) : PlateStep q (f q) p.freedBuffers := by
    refine ⟨rfl, rfl, fun h => absurd h (by simp [hdead]), ?_, fun n => ?_⟩
    · rw [hdead, hlive]
      exact List.forall₂_map_right_iff.mpr (List.forall₂_same.mpr fun b _ => ended_step b)
    · rw [Plate.freedBuffers, hbands]
      exact count_buffers_map fun b _ => ended_buffers b n
  have hout : Outcome s q f p.freedBuffers (fun x => !decide (x = q.id)) e :=
    he.outcome hq (fun _ => rfl) hlive (by rcases hstate with rfl | rfl <;> simp [f]) (fun id => by simp [hdead])
      (fun ⟨hlen, hover, hclip, _⟩ => ⟨hlen, hover, hclip, satAdd_le _ _⟩) fun _ => hstep
  refine hout.keeps.trans ?_
  rw [hid]
  exact ((((discard_calm _ _).trans (interrupt_calm _ _)).trans (releaseRing_calm _)).withEngine e).keeps

end Sys2Proof.Machine

/-! A drum fault, PLATE ABORT, and the end of a copy. -/

namespace Sys2Proof.Machine

/-! ### The engine stops and enters IDLE -/

section idle
variable (s : State)

theorem enterIdle_keeps (hno : s.engine.NoRead) (hnone : s.QueueLaw → s.engine.taken = none) : Keeps s s.enterIdle := by
  have hidle (hs : s.QueueLaw) : s.enterIdle.engine.state = .idle ↔ s.engine.state = .idle := by
    obtain ⟨-, -, -, -, -, hiff⟩ := id hs
    exact ⟨fun _ => hiff.mpr (hnone hs), fun _ => rfl⟩
  have hsteady (h : s.QueueLaw) : Steady s s.enterIdle := withEngine_steady s _ (hnone h).symm (hidle h)
  exact
    { link := fun h => h
      ring := fun h => h
      table := fun h => h
      marks := fun h => h
      fifo := fun h => h
      stores := fun h => h
      segs := fun h => h.same rfl rfl rfl rfl rfl
      queue := fun h => (hsteady h).queue h
      sound := fun h => by
        obtain ⟨hcore, -, -⟩ := (sound_iff s).mp h
        exact (sound_iff _).mpr ⟨(hsteady hcore.queue).core hcore, ⟨nofun, fun r hr => .inl (hno r hr)⟩, nofun⟩ }

/-- Without a record of the plate taken, the queue's law says that none is taken. -/
theorem taken_none_of_takenPlate? {s : State} (h : s.takenPlate? = none) (hs : s.QueueLaw) : s.engine.taken = none := by
  obtain ⟨-, -, -, -, htaken, -⟩ := (queueLaw_iff s).mp hs
  rcases ht : s.engine.taken with _ | t
  · rfl
  · obtain ⟨p, hp, -⟩ := htaken t ht
    rw [takenPlate?_eq ht hp] at h
    cases h

theorem stopEngine_taken : s.stopEngine.engine.taken = s.engine.taken := by
  rw [stopEngine_engine]
  rfl

theorem stopEngine_takenPlate? {s : State} (h : s.takenPlate? = none) : s.stopEngine.takenPlate? = none := by
  rcases ht : s.engine.taken with _ | t
  · simp [State.takenPlate?, stopEngine_taken, ht]
  · have hp : s.plate? t.plate = none := by simpa [State.takenPlate?, ht] using h
    simp [State.takenPlate?, stopEngine_taken, ht, stopEngine_plate?, closeEpisodes_plate? ht, hp]

theorem stopEngine_noRead : s.stopEngine.engine.NoRead := by
  rw [stopEngine_engine]
  exact stop_noRead _

/-! ### Drum faults (R122 to R124) -/

theorem faultTold_keeps (t : Taken) (p : Plate) (cause : DrumCause) : Keeps s (s.faultTold t p cause) := by
  refine (stopEngine_keeps s).trans (Keeps.trans ?_ (post_calm _ _).keeps)
  exact (addRecord_steady _ _ _).keeps_same (by simp)

theorem faulted_step (live : Bool) (b : Band) : BandStep live live b b.faulted where
  nextSeq := rfl
  rendering := rfl
  buffer := .inl rfl
  needs _ h := by
    unfold Band.faulted at h
    by_cases hb : b.state = .exposing <;> simp_all [Band.needs]
  going h := by
    unfold Band.faulted at h
    by_cases hb : b.state = .exposing <;> simp [hb] at h
    exact h
  shaped h := by
    obtain ⟨hblank, hempty, hbelow, hdone, hrend, hbuf⟩ := h
    unfold Band.Shaped Band.faulted
    by_cases hb : b.state = .exposing <;> simp_all

/-- The plate of a fault in a copy that is not the last waits for its next start (R123). -/
theorem reload_keeps {q : Plate} (hq : s.plate? q.id = some q) (hlive : s.QueueLaw → q.live = true) {e : Engine}
    (he : s.Leaves e q.id) : Keeps s ((s.modPlate q.id fun q =>
      { q with state := .loading, authorised := false, bands := q.bands.map Band.faulted }).withEngine e) := by
  rw [withEngine_modPlate]
  refine (Outcome.keeps (he.outcome (keep := fun _ => true) hq (fun _ => rfl) hlive nofun (fun id => ?_) id
    fun _ hlive => ⟨rfl, rfl, fun _ => hlive, ?_, fun n => ?_⟩))
  · simp [Plate.live]
  · rw [hlive]
    exact List.forall₂_map_right_iff.mpr (List.forall₂_same.mpr fun b _ => faulted_step true b)
  · have hsame : ∀ b : Band, b.faulted.buffer = b.buffer := fun _ => rfl
    simp [List.filterMap_map, hsame]

/-- The plate taken is live where the queue's law holds. -/
theorem live_of_taken {s : State} {t : Taken} {p : Plate} (hs : s.QueueLaw) (ht : s.engine.taken = some t)
    (hp : s.plate? t.plate = some p) : p.live = true := by
  obtain ⟨-, -, -, -, htaken, -⟩ := (queueLaw_iff s).mp hs
  obtain ⟨q, hq, hactive⟩ := htaken t ht
  obtain rfl : q = p := Option.some.inj (hq.symm.trans hp)
  simp [Plate.live, hactive]

theorem endPlate_engine (p : Plate) (x : PlateState) (c : Bool) : (s.endPlate p x c).engine = s.engine := by simp

theorem drumFault_keeps (cause : DrumCause) : Keeps s (s.drumFault cause) := by
  rcases hpt : s.takenPlate? with _ | ⟨t, p⟩
  · have hnone : s.drumFault cause = s.stopEngine.enterIdle := by simp only [State.drumFault, hpt]
    rw [hnone]
    refine (stopEngine_keeps s).trans (enterIdle_keeps _ (stopEngine_noRead s) fun h => ?_)
    exact taken_none_of_takenPlate? (stopEngine_takenPlate? hpt) h
  · obtain ⟨ht, hid, hp⟩ := takenPlate?_some hpt
    rw [drumFault_eq cause ht (hid ▸ hp)]
    obtain ⟨d, -, -, hplate, -⟩ := faultTold_plate? cause ht hid.symm hp
    obtain ⟨-, hengine, -⟩ := faultTold_parts s t p cause
    have hleaves : (s.faultTold t p cause).Leaves (s.faultTold t p cause).engine.idled p.id :=
      .inl ⟨by rw [hengine, hid]; exact congrArg _ ht, rfl, by rw [hengine]; exact stop_noRead _⟩
    have hlive (h : (s.faultTold t p cause).QueueLaw) :
        (({ p with damage := d } : Plate).withRecord (drumRecordOf p t.copy s.engine.swath)).live = true :=
      live_of_taken h (t := t) (by rw [hengine]; exact ht) (by rw [← hid]; exact hplate)
    refine ((faultTold_keeps s t p cause).trans ?_).trans (takeHead_keeps _)
    unfold State.faultPlate
    split
    · rw [enterIdle_eq, endPlate_engine]
      exact endPlate_keeps (s.faultTold t p cause) false hplate rfl hlive (.inr rfl) hleaves
    · exact reload_keeps (s.faultTold t p cause) hplate hlive hleaves

/-! ### PLATE ABORT (R18, R19, R126) -/

theorem abortPlate_keeps {p : Plate} (hp : s.plate? p.id = some p) (hlive : p.live = true) : Keeps s (s.abortPlate p) := by
  unfold State.abortPlate
  split
  next htaken =>
    obtain ⟨t, ht, hid⟩ := Option.map_eq_some_iff.mp (of_decide_eq_true htaken)
    obtain ⟨d, -, hplate, -⟩ := stopEngine_taken_plate? ht hid hp
    rw [enterIdle_eq, endPlate_engine]
    refine Keeps.trans ((stopEngine_keeps s).trans ?_) (takeHead_keeps _)
    refine (endPlate_keeps _ true hplate rfl (fun _ => hlive) (.inl rfl) (.inl ⟨?_, rfl, ?_⟩))
    · rw [stopEngine_taken, ht, ← hid]
      rfl
    · exact stopEngine_noRead s
  next hnot =>
    have := endPlate_keeps s true hp rfl (fun _ => hlive) (.inl rfl) (.inr ⟨of_decide_eq_false (Bool.eq_false_iff.mpr hnot), rfl⟩)
    rw [← endPlate_engine s p .aborted true] at this
    exact this.trans (takeHead_keeps _)

/-! ### The end of a copy (R116 to R118) -/

/-- The engine goes on to the next copy of its plate, which counts the copy done. -/
theorem nextCopy_outcome {t : Taken} {q : Plate} (ht : s.engine.taken = some t) (hid : t.plate = q.id)
    (hq : s.plate? q.id = some q) (hfifo : s.engine.fifo = []) (hno : s.engine.NoRead) :
    Outcome s q (fun q => { q with completed := q.completed + 1 }) [] (fun _ => true) (s.engine.nextCopy t) := by
  have hrep (h : s.QueueLaw) := outcome_replaces (freed := []) (keep := fun _ => true)
    (f := fun q => { q with completed := q.completed + 1 }) (e := s.engine.nextCopy t) h.1 hq rfl
  have hstep : PlateStep q { q with completed := q.completed + 1 } [] :=
    ⟨rfl, rfl, fun h => h, forall₂_refl (BandStep.refl q.live) _, fun n => by simp⟩
  refine ⟨hq, fun _ => rfl, id, fun _ => hstep, fun _ => .inl rfl, fun h => ?_, fun _ => fifoLaw_of_nil hfifo,
    fun _ _ => ⟨fun t' _ => ⟨nofun, Nat.le_refl _, ?_⟩, fun r hr => .inl (hno r hr)⟩, fun h hd t' ht' => ?_⟩
  · obtain ⟨-, -, -, hactive, htaken, hidle⟩ := (queueLaw_iff s).mp h
    have hlive := live_of_taken h ht (hid ▸ hq)
    refine (hrep h).queueLaw h hlive (fun _ => (Bool.or_eq_true_iff.mpr (.inr hlive)).symm) (fun id x hx hxa => ?_) (fun t' ht' => ?_) ?_
    · obtain ⟨y, hy, ⟨-, rfl⟩ | ⟨-, rfl, rfl⟩⟩ := (hrep h).origin hx
      all_goals
        have hold := hactive id _ hy hxa
        rwa [ht] at hold
    · obtain rfl : (⟨t.plate, t.copy + 1⟩ : Taken) = t' := Option.some.inj ht'
      obtain ⟨x, hx, hxa⟩ := htaken t ht
      obtain rfl : q = x := Option.some.inj (hq.symm.trans (hid ▸ hx))
      exact ⟨{ q with completed := q.completed + 1 },
        by rw [show (⟨t.plate, t.copy + 1⟩ : Taken).plate = q.id from hid]; exact (hrep h).plate?_self, hxa⟩
    · exact ⟨nofun, nofun⟩
  · intro l hl
    rw [show (s.engine.nextCopy t).fifo = s.engine.fifo from rfl, hfifo] at hl
    cases hl
  · obtain rfl : (⟨t.plate, t.copy + 1⟩ : Taken) = t' := Option.some.inj ht'
    obtain ⟨x, hx, hcopy, -⟩ := hd t ht
    obtain rfl : q = x := Option.some.inj (hq.symm.trans (hid ▸ hx))
    exact ⟨_, by rw [show (⟨t.plate, t.copy + 1⟩ : Taken).plate = q.id from hid]; exact (hrep h).plate?_self,
      by rw [hcopy], fun i b _ hi => absurd hi (Nat.not_lt_zero _)⟩

theorem modPlate_modPlate (s : State) (id : Nat) {f g : Plate → Plate} (hf : ∀ x, (f x).id = x.id) :
    (s.modPlate id f).modPlate id g = s.modPlate id fun x => g (f x) := by
  simp only [State.modPlate, withTable_table, List.map_map]
  refine congrArg (fun l => s.withTable ⟨l, s.table.queue⟩) (List.map_congr_left fun x _ => ?_)
  by_cases hx : x.id = id
  · simp [hx, hf]
  · simp [hx]

theorem fetched_not_exposing (final : Bool) (b : Band) : (b.fetched final).state ≠ .exposing := by
  unfold Band.fetched
  by_cases hb : b.state = .exposing <;> cases final <;> simp [hb]

/-- The bands of the copy that ends: the plate's record as it then stands, and the engine stopped. -/
theorem endCopyBands_stopped {t : Taken} {p : Plate} (ht : s.engine.taken = some t) (hid : t.plate = p.id)
    (hp : s.plate? p.id = some p) {final : Bool} (hfinal : final = false → p.completed + 1 < p.copies) :
    ∃ d, (s.stopEngine.endCopyBands p final).plate? p.id
        = some { p with damage := d, bands := p.bands.map (Band.fetched final) }
      ∧ (s.stopEngine.endCopyBands p final).engine = s.engine.stop
      ∧ Keeps s (s.stopEngine.endCopyBands p final) := by
  obtain ⟨d, -, hplate, -⟩ := stopEngine_taken_plate? ht hid hp
  have hbands : Steady s.stopEngine (s.stopEngine.endCopyBands p final) :=
    endCopyBands_steady (p := { p with damage := d }) s.stopEngine hplate hfinal
  refine ⟨d, plate?_modPlate_at (s := s.stopEngine) (f := fun q => { q with bands := q.bands.map (Band.fetched final) })
      (fun _ => rfl) hplate, ?_, (stopEngine_keeps s).trans (hbands.keeps_same ?_)⟩
  · simp [State.endCopyBands, stopEngine_engine]
  · simp [State.endCopyBands]

/-- A band that keeps its fields as its plate's last copy ends. -/
theorem done_step {b : Band} (hb : b.state = .blank ∨ b.state = .starved ∨ b.state = .exposed) :
    BandStep true false b b where
  nextSeq := rfl
  rendering := rfl
  buffer := .inl rfl
  needs h := by simp at h
  going h := h
  shaped h := by
    obtain ⟨hblank, hempty, hbelow, hdone, hrend, hbuf⟩ := h
    refine ⟨hblank, hempty, hbelow, hdone, hrend, fun h => ?_⟩
    rcases hbuf h with hr | ⟨-, hs⟩
    · exact .inl hr
    · rcases hb with hb | hb | hb <;> simp [hb] at hs

theorem lines_le_swaths (p : Plate) : p.height ≤ 4 * p.swaths := by
  unfold Plate.swaths
  omega

/-- The engine, stopped at the end of a plate's last copy, leaves the plate DONE: the fetch has decided every band. -/
theorem done_outcome {t : Taken} {q : Plate} (ht : s.engine.taken = some t) (hid : t.plate = q.id)
    (hq : s.plate? q.id = some q) (hno : s.engine.NoRead) (hswath : q.swaths ≤ s.engine.swath)
    (hlast : q.copies ≤ q.completed + 1) (hbands : ∀ b ∈ q.bands, b.state ≠ .exposing) :
    Outcome s q (fun q => { q with state := .done, completed := q.completed + 1 }) [] (fun x => !decide (x = q.id))
      s.engine.idled := by
  have hleaves : s.Leaves s.engine.idled q.id := .inl ⟨by rw [ht, ← hid]; rfl, rfl, hno⟩
  refine hleaves.outcome hq (fun _ => rfl) (fun h => live_of_taken h ht (hid ▸ hq)) nofun (fun _ => by simp [Plate.live]) id
    fun hs hlive => ⟨rfl, rfl, nofun, ?_, fun n => by simp⟩
  obtain ⟨hcore, ⟨htaken, -⟩, hdecided⟩ := (sound_iff s).mp hs
  obtain ⟨-, hpos, -⟩ := htaken t ht
  obtain ⟨x, hx, hcopy, hdec⟩ := hdecided t ht
  obtain rfl : q = x := Option.some.inj (hq.symm.trans (hid ▸ hx))
  rw [hlive]
  refine List.forall₂_same.mpr fun b hb => done_step ?_
  obtain ⟨i, hi⟩ := List.mem_iff_getElem?.mp hb
  have hlt : i < q.bands.length := (List.getElem?_eq_some_iff.mp hi).1
  have hlines := lines_le_swaths q
  have hlen := (hcore.bands q.id q hq).1
  have hstate := hdec i b hi (by omega)
  have hmore : ¬t.copy < q.copies := by omega
  have hnot := hbands b hb
  simp only [Band.Decided, hmore, and_false, or_false, hnot, false_or] at hstate
  exact hstate

theorem outcome_done (id : Nat) : s.outcome id (fun q => { q with state := .done, completed := q.completed + 1 }) []
      (fun x => !decide (x = id)) s.engine.idled
    = (((s.modPlate id fun q => { q with completed := q.completed + 1 }).modPlate id fun q =>
        { q with state := .done }).leaveQueue id).enterIdle := by
  rw [modPlate_modPlate s id (f := fun q => { q with completed := q.completed + 1 }) fun _ => rfl]
  simp [State.outcome, State.returnBuffers, State.leaveQueue, State.modPlate, State.withPool, State.withTable,
    State.withEngine, enterIdle_eq]

theorem endCopy_keeps {t : Taken} {p : Plate} (hpt : s.takenPlate? = some (t, p)) (hswath : p.swaths ≤ s.engine.swath) :
    Keeps s (s.endCopy t p) := by
  obtain ⟨ht, hid, hp⟩ := takenPlate?_some hpt
  obtain ⟨d, hq, hengine, hkeeps⟩ := endCopyBands_stopped s ht hid.symm hp
    (final := !decide (p.completed + 1 < p.copies)) (fun hf => by simpa using hf)
  unfold State.endCopy
  set v := s.stopEngine.endCopyBands p (!decide (p.completed + 1 < p.copies)) with hv
  let q : Plate := { p with damage := d, bands := p.bands.map (Band.fetched (!decide (p.completed + 1 < p.copies))) }
  have htv : v.engine.taken = some t := by rw [hengine]; exact ht
  have hno : v.engine.NoRead := by rw [hengine]; exact stop_noRead _
  dsimp only
  split
  · refine hkeeps.trans ?_
    have hnext := (nextCopy_outcome (q := q) v htv hid.symm hq (by rw [hengine]; rfl) hno).keeps
    rw [← withEngine_modPlate] at hnext
    exact hnext.trans ((post_calm _ _).withEngine _).keeps
  next hlast =>
    refine (hkeeps.trans ?_).trans (takeHead_keeps _)
    have hdone := (done_outcome (q := q) v htv hid.symm hq hno (by rw [hengine]; exact hswath) (by simpa using hlast)
      fun b hb => by
        obtain ⟨a, -, rfl⟩ := List.mem_map.mp hb
        exact fetched_not_exposing _ a).keeps
    refine hdone.trans ?_
    rw [show q.id = p.id from rfl, outcome_done]
    exact ((post_calm _ _).trans (post_calm _ _)).keeps

end idle

end Sys2Proof.Machine

/-! A render begins and ends: one band takes or leaves a render, and the list of works gains or loses one. -/

namespace Sys2Proof.Machine

/-! ### One band changed -/

section band
variable {s : State} {id b : Nat} {f : Band → Band}

theorem plate?_modBand (s : State) (id b : Nat) (f : Band → Band) (id' : Nat) : (s.modBand id b f).plate? id' =
    (s.plate? id').map fun p => if id' = id then p.modBand b f else p :=
  plate?_modPlate (f := fun p => p.modBand b f) (fun _ => rfl) id'

/-- A band of the table after band `b` of plate `id` is changed, with the band it comes from. -/
theorem modBand_origin {id' i : Nat} {x : Plate} {c : Band} (hx : (s.modBand id b f).plate? id' = some x)
    (hc : x.bands[i]? = some c) : ∃ y a, s.plate? id' = some y ∧ y.bands[i]? = some a ∧ x.live = y.live
      ∧ (id' = id ∧ i = b ∧ c = f a ∨ ¬(id' = id ∧ i = b) ∧ c = a) := by
  rw [plate?_modBand] at hx
  obtain ⟨y, hy, rfl⟩ := Option.map_eq_some_iff.mp hx
  by_cases hid : id' = id
  · simp only [if_pos hid, Plate.modBand, List.getElem?_modify] at hc ⊢
    obtain ⟨a, ha, rfl⟩ := Option.map_eq_some_iff.mp hc
    refine ⟨y, a, hy, ha, rfl, ?_⟩
    by_cases hi : b = i
    · exact .inl ⟨hid, hi.symm, if_pos hi⟩
    · exact .inr ⟨fun h => hi h.2.symm, if_neg hi⟩
  · rw [if_neg hid] at hc ⊢
    exact ⟨y, c, hy, hc, rfl, .inr ⟨fun h => hid h.1, rfl⟩⟩

/-- A band of the table, with what it becomes where another band is changed. -/
theorem modBand_image {id' i : Nat} {y : Plate} {a : Band} (hy : s.plate? id' = some y) (ha : y.bands[i]? = some a) :
    ∃ x, (s.modBand id b f).plate? id' = some x ∧ x.live = y.live
      ∧ x.bands[i]? = some (if id' = id ∧ i = b then f a else a) := by
  refine ⟨if id' = id then y.modBand b f else y, by rw [plate?_modBand, hy]; rfl, ?_, ?_⟩
  · split <;> rfl
  · by_cases hid : id' = id
    · rw [if_pos hid, Plate.modBand, List.getElem?_modify, ha]
      by_cases hi : b = i
      · simp [hid, hi]
      · simp [hid, hi, Ne.symm hi]
    · simp [hid, ha]

theorem State.BandLaw.modBand (h : s.BandLaw)
    (hf : ∀ p a, s.plate? id = some p → p.bands[b]? = some a → a.Shaped p.live → (f a).Shaped p.live) :
    (s.modBand id b f).BandLaw := by
  intro id' x hx
  refine ⟨?_, fun i c hc => ?_⟩
  · rw [plate?_modBand] at hx
    obtain ⟨y, hy, rfl⟩ := Option.map_eq_some_iff.mp hx
    have := (h id' y hy).1
    split <;> simpa [Plate.modBand] using this
  · obtain ⟨y, a, hy, ha, hlive, ⟨rfl, rfl, rfl⟩ | ⟨-, rfl⟩⟩ := modBand_origin hx hc
    · rw [hlive]
      exact hf y a hy ha ((h _ y hy).2 _ a ha)
    · rw [hlive]
      exact (h _ y hy).2 _ c ha

/-- What the exposure has decided stands where the band changed keeps what it had decided. -/
theorem State.DecidedTo.modBand {n : Nat} (h : s.DecidedTo n)
    (hf : ∀ p a more, s.plate? id = some p → p.bands[b]? = some a → a.Decided more → (f a).Decided more) :
    (s.modBand id b f).DecidedTo n := by
  intro t ht
  obtain ⟨p, hp, hcopy, hbands⟩ := h t ht
  refine ⟨if t.plate = id then p.modBand b f else p, by rw [plate?_modBand, hp]; rfl,
    by split <;> exact hcopy, fun i c hc hi => ?_⟩
  have hx : (s.modBand id b f).plate? t.plate = some (if t.plate = id then p.modBand b f else p) := by
    rw [plate?_modBand, hp]
    rfl
  have hcopies : (if t.plate = id then p.modBand b f else p).copies = p.copies := by split <;> rfl
  rw [hcopies]
  obtain ⟨y, a, hy, ha, -, ⟨hid, rfl, rfl⟩ | ⟨-, rfl⟩⟩ := modBand_origin hx hc
  all_goals obtain rfl : p = y := Option.some.inj (hp.symm.trans hy)
  · exact hf p a _ (hid ▸ hp) ha (hbands _ a ha hi)
  · exact hbands _ c ha hi

end band

/-! ### A work more, a work less -/

section works
variable {s u : State} {k : Work} {l r : List Work} {f : Band → Band}

/-- Two works never stand in the same band: the relation of the render order law, which is symmetric. -/
theorem apart_symm {j k : Work} (h : ∀ id i, k.Into id i → ¬j.Into id i) : ∀ id i, j.Into id i → ¬k.Into id i :=
  fun id i hj hk => h id i hk hj

theorem pairwise_works_middle (l r : List Work) (k : Work) :
    (l ++ k :: r).Pairwise (fun k j : Work => ∀ id i, k.Into id i → ¬j.Into id i)
      ↔ (∀ j ∈ l ++ r, ∀ id i, k.Into id i → ¬j.Into id i)
        ∧ (l ++ r).Pairwise fun k j : Work => ∀ id i, k.Into id i → ¬j.Into id i := by
  rw [List.pairwise_middle apart_symm, List.pairwise_cons]

theorem into_self (hk : k.entry.linked = true) : k.Into k.entry.header.plate k.entry.header.band := ⟨hk, rfl, rfl⟩

/-- A work begins in a band without a render, whose next seq is its own. -/
theorem State.RenderLaw.give (h : s.RenderLaw) (hs : s.works = l ++ r) (hu : u.works = l ++ k :: r)
    (hplates : ∀ id, u.plate? id = (s.modBand k.entry.header.plate k.entry.header.band fun b =>
      { b with rendering := true, buffer := some k.buffer }).plate? id)
    (hk : k.entry.linked = true) {p : Plate} {b : Band} (hp : s.plate? k.entry.header.plate = some p)
    (hb : p.bands[k.entry.header.band]? = some b) (hfree : b.rendering = false) (hnext : k.entry.header.seq = b.nextSeq)
    (hentries : ∀ e ∈ u.segs.queue, e.live = true →
      ∃ e' ∈ s.segs.queue, e'.live = true ∧ e'.header = e.header ∧ e'.linked = e.linked) : u.RenderLaw := by
  obtain ⟨hinto, hband, hpair, hseq⟩ := h
  have hother : ∀ j ∈ l ++ r, ¬j.Into k.entry.header.plate k.entry.header.band := by
    rintro j hj ⟨hl, hjp, hjb⟩
    obtain ⟨y, a, hy, ha, hrend, -⟩ := hinto j (hs ▸ hj) hl
    rw [hjp] at hy
    obtain rfl : p = y := Option.some.inj (hp.symm.trans hy)
    rw [hjb] at ha
    obtain rfl : b = a := Option.some.inj (hb.symm.trans ha)
    rw [hfree] at hrend
    cases hrend
  unfold State.RenderLaw
  simp only [hplates, hu]
  refine ⟨fun j hj hl => ?_, fun id x i c hx hc hr => ?_, ?_, fun e he hlive hl => ?_⟩
  · rcases List.mem_cons.mp (List.perm_middle.mem_iff.mp hj) with rfl | hj
    · obtain ⟨x, hx, -, hc⟩ := modBand_image (id := j.entry.header.plate) (b := j.entry.header.band) (f := fun b =>
        { b with rendering := true, buffer := some j.buffer }) hp hb
      rw [if_pos ⟨rfl, rfl⟩] at hc
      exact ⟨x, _, hx, hc, rfl, rfl, fun _ _ => hnext⟩
    · obtain ⟨y, a, hy, ha, hrend, hbuf, hsq⟩ := hinto j (hs ▸ hj) hl
      obtain ⟨x, hx, hxl, hc⟩ := modBand_image (id := k.entry.header.plate) (b := k.entry.header.band) (f := fun b =>
        { b with rendering := true, buffer := some k.buffer }) hy ha
      rw [if_neg fun hc => hother j hj ⟨hl, hc.1, hc.2⟩] at hc
      exact ⟨x, a, hx, hc, hrend, hbuf, fun hxlive => hsq (hxl ▸ hxlive)⟩
  · obtain ⟨y, a, hy, ha, -, ⟨rfl, rfl, -⟩ | ⟨-, rfl⟩⟩ := modBand_origin hx hc
    · exact ⟨k, by simp, into_self hk⟩
    · obtain ⟨j, hj, hji⟩ := hband id y i c hy ha hr
      rw [hs] at hj
      exact ⟨j, List.perm_middle.mem_iff.mpr (List.mem_cons_of_mem _ hj), hji⟩
  · refine (pairwise_works_middle l r k).mpr ⟨?_, hs ▸ hpair⟩
    rintro j hj id i ⟨-, rfl, rfl⟩
    exact hother j hj
  · obtain ⟨e', he', hl', hh, hk'⟩ := hentries e he hlive
    obtain ⟨y, a, hy, ha, hle⟩ := hseq e' he' hl' (hk'.trans hl)
    rw [hh] at hy ha hle
    obtain ⟨x, hx, -, hc⟩ := modBand_image (id := k.entry.header.plate) (b := k.entry.header.band) (f := fun b =>
      { b with rendering := true, buffer := some k.buffer }) hy ha
    refine ⟨x, _, hx, hc, ?_⟩
    split <;> exact hle

/-- A work ends in its band, which takes no render any more; `f` may move the next seq on past what the entries left ask. -/
theorem State.RenderLaw.leave (h : s.RenderLaw) (hs : s.works = l ++ k :: r) (hu : u.works = l ++ r)
    (hplates : ∀ id, u.plate? id = (s.modBand k.entry.header.plate k.entry.header.band f).plate? id)
    (hk : k.entry.linked = true) (hf : ∀ b, (f b).rendering = false)
    (hentries : ∀ e ∈ u.segs.queue, e.live = true → ∃ e' ∈ s.segs.queue, e'.live = true ∧ e'.header = e.header
      ∧ e'.linked = e.linked ∧ ∀ p b, s.plate? e.header.plate = some p → p.bands[e.header.band]? = some b →
        e.linked = true → e.header.plate = k.entry.header.plate → e.header.band = k.entry.header.band →
        b.nextSeq ≤ e.header.seq → (f b).nextSeq ≤ e.header.seq) : u.RenderLaw := by
  obtain ⟨hinto, hband, hpair, hseq⟩ := h
  rw [hs] at hpair
  obtain ⟨hother, hpair⟩ := (pairwise_works_middle l r k).mp hpair
  have hmem {j : Work} (hj : j ∈ l ++ r) : j ∈ s.works := hs ▸ List.perm_middle.mem_iff.mpr (List.mem_cons_of_mem _ hj)
  unfold State.RenderLaw
  simp only [hplates, hu]
  refine ⟨fun j hj hl => ?_, fun id x i c hx hc hr => ?_, hpair, fun e he hlive hl => ?_⟩
  · obtain ⟨y, a, hy, ha, hrend, hbuf, hsq⟩ := hinto j (hmem hj) hl
    obtain ⟨x, hx, hxl, hc⟩ := modBand_image (id := k.entry.header.plate) (b := k.entry.header.band) (f := f) hy ha
    rw [if_neg fun hc => hother j hj _ _ (into_self hk) ⟨hl, hc.1, hc.2⟩] at hc
    exact ⟨x, a, hx, hc, hrend, hbuf, fun hxlive => hsq (hxl ▸ hxlive)⟩
  · obtain ⟨y, a, hy, ha, -, ⟨-, -, rfl⟩ | ⟨hne, rfl⟩⟩ := modBand_origin hx hc
    · rw [hf] at hr
      cases hr
    · obtain ⟨j, hj, hji⟩ := hband id y i c hy ha hr
      rw [hs] at hj
      rcases List.mem_cons.mp (List.perm_middle.mem_iff.mp hj) with rfl | hj
      · obtain ⟨-, hjp, hjb⟩ := hji
        exact absurd ⟨hjp.symm, hjb.symm⟩ hne
      · exact ⟨j, hj, hji⟩
  · obtain ⟨e', he', hl', hh, hk', hnext⟩ := hentries e he hlive
    obtain ⟨y, a, hy, ha, hle⟩ := hseq e' he' hl' (hk'.trans hl)
    rw [hh] at hy ha hle
    obtain ⟨x, hx, -, hc⟩ := modBand_image (id := k.entry.header.plate) (b := k.entry.header.band) (f := f) hy ha
    refine ⟨x, _, hx, hc, ?_⟩
    split
    next hplace => exact hnext y a hy ha hl hplace.1 hplace.2 hle
    · exact hle

/-- A work ends whose plate record is gone. -/
theorem State.RenderLaw.leave_unlinked (h : s.RenderLaw) (hs : s.works = l ++ k :: r) (hu : u.works = l ++ r)
    (htable : u.table = s.table) (hk : k.entry.linked = false)
    (hentries : ∀ e ∈ u.segs.queue, e.live = true →
      ∃ e' ∈ s.segs.queue, e'.live = true ∧ e'.header = e.header ∧ e'.linked = e.linked) : u.RenderLaw := by
  obtain ⟨hinto, hband, hpair, hseq⟩ := h
  rw [hs] at hpair
  obtain ⟨-, hpair⟩ := (pairwise_works_middle l r k).mp hpair
  unfold State.RenderLaw
  simp only [plate?_of_table htable, hu]
  refine ⟨fun j hj => hinto j (hs ▸ List.perm_middle.mem_iff.mpr (List.mem_cons_of_mem _ hj)), fun id x i c hx hc hr => ?_,
    hpair, fun e he hlive hl => ?_⟩
  · obtain ⟨j, hj, hji⟩ := hband id x i c hx hc hr
    rw [hs] at hj
    rcases List.mem_cons.mp (List.perm_middle.mem_iff.mp hj) with rfl | hj
    · obtain ⟨hl, -⟩ := hji
      rw [hk] at hl
      cases hl
    · exact ⟨j, hj, hji⟩
  · obtain ⟨e', he', hl', hh, hk'⟩ := hentries e he hlive
    have := hseq e' he' hl' (hk'.trans hl)
    rwa [hh] at this

end works

end Sys2Proof.Machine

/-! The buffers and the needs where one band takes or gives up a buffer. -/

namespace Sys2Proof.Machine

/-! ### The places of a buffer -/

section band
variable {s : State} {id b : Nat} {f : Band → Band}

theorem modBand_held {p : Plate} {a : Band} {n x y : Nat} (hnodup : (s.table.plates.map Plate.id).Nodup)
    (hp : s.plate? id = some p) (ha : p.bands[b]? = some a)
    (h : (f a).buffer.toList.count n + x = a.buffer.toList.count n + y) :
    ((s.modBand id b f).table.plates.flatMap fun p => p.bands.filterMap Band.buffer).count n + x
      = (s.table.plates.flatMap fun p => p.bands.filterMap Band.buffer).count n + y := by
  obtain ⟨hid, l, r, hlr, hl, hr⟩ := plates_split hnodup hp
  have hband := count_buffers_modify ha h
  rw [State.modBand, modPlate_plates_of_split _ hid hlr hl hr, hlr]
  simp only [List.flatMap_append, List.flatMap_cons, List.count_append, Plate.modBand]
  omega

/-! ### Needs -/

theorem filter_modify_length {α : Type} (w : α → Bool) (f : α → α) {l : List α} {i : Nat} {a : α} (ha : l[i]? = some a) :
    ((l.modify i f).filter w).length + (if w a then 1 else 0) = (l.filter w).length + if w (f a) then 1 else 0 := by
  induction l generalizing i with
  | nil => simp at ha
  | cons c r ih =>
    cases i with
    | zero =>
      obtain rfl : c = a := by simpa using ha
      rw [List.modify_zero_cons, List.filter_cons, List.filter_cons]
      split <;> split <;> simp
    | succ i =>
      have := ih (i := i) (by simpa using ha)
      rw [List.modify_succ_cons, List.filter_cons, List.filter_cons]
      split
      · simp only [List.length_cons]
        omega
      · exact this

theorem needOf_modBand {p : Plate} {a : Band} (hp : s.plate? id = some p) (ha : p.bands[b]? = some a) :
    (s.modBand id b f).needOf id + (if a.needs then 1 else 0) = s.needOf id + if (f a).needs then 1 else 0 := by
  rw [State.needOf, State.needOf, plate?_modBand, hp]
  simp only [Option.map_some, if_true, Option.getD_some]
  exact filter_modify_length Band.needs f ha

theorem needOf_modBand_other {id' : Nat} (h : id' ≠ id) : (s.modBand id b f).needOf id' = s.needOf id' := by
  simp [State.needOf, plate?_modBand, h]

theorem holds_modBand_other {id' : Nat} (h : id' ≠ id) : (s.modBand id b f).holds id' = s.holds id' := by
  simp [State.holds, plate?_modBand, h]

theorem holds_modBand {id' : Nat} (hf : ∀ p a, s.plate? id = some p → p.bands[b]? = some a → (f a).buffer.isSome →
      a.buffer.isSome) (h : (s.modBand id b f).holds id' = true) : s.holds id' = true := by
  by_cases hid : id' = id
  · subst hid
    rcases hp : s.plate? id' with _ | p
    · simp [State.holds, plate?_modBand, hp] at h
    · simp only [State.holds, plate?_modBand, hp, Option.map_some, if_true, Option.getD_some, Plate.holdsBuffer,
        List.any_eq_true, Plate.modBand] at h ⊢
      obtain ⟨c, hc, hsome⟩ := h
      obtain ⟨i, hi⟩ := List.mem_iff_getElem?.mp hc
      rw [List.getElem?_modify] at hi
      obtain ⟨a, ha, rfl⟩ := Option.map_eq_some_iff.mp hi
      refine ⟨a, List.mem_of_getElem? ha, ?_⟩
      split at hsome
      next hb => exact hf p a hp (hb ▸ ha) hsome
      · exact hsome
  · rwa [holds_modBand_other hid] at h

end band

/-! ### Reservations -/

section reservation
variable {s u : State}

theorem needSum_le {ids : List Nat} (h : ∀ id ∈ ids, u.needOf id ≤ s.needOf id) : u.needSum ids ≤ s.needSum ids :=
  List.sum_le_sum h

/-- No need in the queue rises, no plate comes to hold a buffer, and no free buffer is taken. -/
theorem State.ReservationLaw.of_le (h : s.ReservationLaw) (hq : u.table.queue = s.table.queue)
    (hneed : ∀ id ∈ s.table.queue, u.needOf id ≤ s.needOf id) (hholds : ∀ id, u.holds id = true → s.holds id = true)
    (hfree : s.pool.free.length ≤ u.pool.free.length) : u.ReservationLaw := by
  intro before id after hsplit hhold
  rw [hq] at hsplit
  have hold := h before id after hsplit (hholds id hhold)
  have hle : u.needSum before ≤ s.needSum before := needSum_le fun x hx => hneed x (by rw [hsplit]; simp [hx])
  omega

/-- A plate takes a granted buffer for a band that needs it: its own need falls with the free buffers (R49, R50). -/
theorem State.ReservationLaw.grant (h : s.ReservationLaw) {id : Nat} (hnodup : s.table.queue.Nodup)
    (hq : u.table.queue = s.table.queue) (hgrant : s.grantable id = true) (hneed : ∀ x, x ≠ id → u.needOf x = s.needOf x)
    (hless : u.needOf id + 1 = s.needOf id) (hholds : ∀ x, x ≠ id → u.holds x = s.holds x)
    (hfree : u.pool.free.length + 1 = s.pool.free.length) : u.ReservationLaw := by
  have hmem : id ∈ s.table.queue := by
    simp only [State.grantable, Bool.and_eq_true, decide_eq_true_eq] at hgrant
    exact hgrant.1
  obtain ⟨ahead, behind, hsplit⟩ := List.append_of_mem hmem
  have hnot : id ∉ ahead ∧ id ∉ behind := by
    rw [hsplit, List.nodup_middle, List.nodup_cons] at hnodup
    simpa using hnodup.1
  have hroom := (grantable_iff hsplit hnot.1).mp hgrant
  have hle (x : Nat) : u.needOf x ≤ s.needOf x := by
    by_cases hx : x = id
    · subst hx
      omega
    · exact (hneed x hx).le
  intro before x after hx hhold
  rw [hq, hsplit] at hx
  have hsum := needSum_le (u := u) (s := s) (ids := before) fun y _ => hle y
  rcases List.append_eq_append_iff.mp hx with ⟨mid, rfl, hrest⟩ | ⟨mid, rfl, hrest⟩
  · rcases mid with _ | ⟨y, mid⟩
    · simp only [List.append_nil] at hsum ⊢
      omega
    · obtain ⟨rfl, rfl⟩ := List.cons.inj hrest
      have hxid : x ≠ id := fun hc => hnot.2 (by rw [← hc]; simp)
      have hold := h (ahead ++ id :: mid) x after (by rw [hsplit]; simp) (by rwa [← hholds x hxid])
      have h1 := needSum_le (u := u) (s := s) (ids := ahead) fun y _ => hle y
      have h2 := needSum_le (u := u) (s := s) (ids := mid) fun y _ => hle y
      simp only [needSum_append, needSum_cons] at hold ⊢
      omega
  · rw [needSum_append] at hroom
    omega

end reservation

end Sys2Proof.Machine

/-! RENDER_START keeps the laws. -/

namespace Sys2Proof.Machine

section give
variable {s : State} {p : Plate} {e : Entry} {n : Nat} {free : List Nat} {kind : SegKind}

/-- The work a renderer is given with an entry and its buffer (R53). -/
def workOf (p : Plate) (e : Entry) (n : Nat) : Work := ⟨{ e with state := .rendering }, n, p.width, p.bandHeight e.header.band⟩

/-- The band that the work is given. -/
def Band.given (n : Nat) (b : Band) : Band := { b with rendering := true, buffer := some n }

theorem giveEntry_table (s : State) (p : Plate) (e : Entry) (n : Nat) (free : List Nat) :
    (s.giveEntry p e n free).table = (s.modBand p.id e.header.band (Band.given n)).table := by
  unfold State.giveEntry State.beginWork
  dsimp only
  split <;> rfl

theorem giveEntry_pool (s : State) (p : Plate) (e : Entry) (n : Nat) (free : List Nat) :
    (s.giveEntry p e n free).pool = ⟨free⟩ := by
  unfold State.giveEntry State.beginWork
  dsimp only
  split <;> rfl

theorem giveEntry_works (hkind : e.header.kind = kind) (hfree : s.rendererFree kind = true) :
    ∃ l r, s.works = l ++ r ∧ (s.giveEntry p e n free).works = l ++ workOf p e n :: r := by
  unfold State.giveEntry State.beginWork State.works
  cases kind with
  | line =>
    have hnone : s.decoder = none := by simpa [State.rendererFree] using hfree
    exact ⟨[], (s.screener.map Screen.work).toList, by simp [hnone], by simp [hkind, workOf]⟩
  | tone =>
    have hnone : s.screener = none := by simpa [State.rendererFree] using hfree
    exact ⟨(s.decoder.map Decode.work).toList, [], by simp [hnone], by simp [hkind, workOf]⟩

theorem giveEntry_queue (hkind : e.header.kind = kind) (he : s.segs.queue.find? (s.offered kind) = some e) :
    ∃ before after, s.segs.queue = before ++ e :: after
      ∧ (s.giveEntry p e n free).segs.queue = before ++ { e with state := .rendering } :: after := by
  obtain ⟨before, after, hq, -, hc⟩ := changeFirst_map (s.offered kind) (fun x => { x with state := .rendering }) _ _ he
  refine ⟨before, after, hq, ?_⟩
  subst hkind
  unfold State.giveEntry State.beginWork
  dsimp only
  split <;> simp [← hc]

/-! ### The band given to a render -/

theorem bufferFor_cases {b : Band} (h : s.bufferFor b = some (n, free)) :
    b.buffer = some n ∧ s.pool.free = free ∨ b.buffer = none ∧ s.pool.free = n :: free := by
  unfold State.bufferFor at h
  split at h
  next hb => obtain ⟨rfl, rfl⟩ := Prod.mk.inj (Option.some.inj h); exact .inl ⟨hb, rfl⟩
  next hb hf => obtain ⟨rfl, rfl⟩ := Prod.mk.inj (Option.some.inj h); exact .inr ⟨hb, hf⟩
  · cases h

theorem given_shaped {live : Bool} {b : Band} (n : Nat) (hb : b.state = .empty ∨ b.state = .filling)
    (h : b.Shaped live) : (b.given n).Shaped live := by
  obtain ⟨hblank, hempty, hbelow, hdone, -, -⟩ := h
  exact ⟨hblank, hempty, hbelow, hdone, fun _ => hb.imp_right .inl, fun _ => .inl rfl⟩

theorem unlinked_given {u : State} {l r : List Work} (hlinked : e.linked = true) (hs : s.works = l ++ r)
    (hu : u.works = l ++ workOf p e n :: r) :
    u.works.filter (fun k => !k.entry.linked) = s.works.filter fun k => !k.entry.linked := by
  rw [hs, hu, List.filter_append, List.filter_append, List.filter_cons_of_neg (by simp [workOf, hlinked])]

theorem given_bufferLaw {u : State} {b : Band} (h : s.BufferLaw) (hnodup : (s.table.plates.map Plate.id).Nodup)
    (hp : s.plate? e.header.plate = some p) (hb : p.bands[e.header.band]? = some b)
    (hn : b.buffer = some n ∧ s.pool.free = free ∨ b.buffer = none ∧ s.pool.free = n :: free)
    (htable : u.table = (s.modBand e.header.plate e.header.band (Band.given n)).table) (hpool : u.pool = ⟨free⟩)
    (hworks : u.works.filter (fun k => !k.entry.linked) = s.works.filter fun k => !k.entry.linked) : u.BufferLaw := by
  intro m
  rw [← h m, State.placesOf, State.placesOf, htable, hpool, hworks]
  rcases hn with ⟨hbuf, hfree⟩ | ⟨hbuf, hfree⟩
  · have := modBand_held (f := Band.given n) (n := m) (x := 0) (y := 0) hnodup hp hb (by simp [Band.given, hbuf])
    rw [hfree]
    dsimp only at this ⊢
    omega
  · have := modBand_held (f := Band.given n) (n := m) (x := 0) (y := [n].count m) hnodup hp hb
      (by simp [Band.given, hbuf])
    rw [hfree]
    simp only [List.count_cons, List.count_nil] at this ⊢
    omega

/-- A band that may take a render needs a buffer where it holds none. -/
theorem given_needs {b : Band} (h : s.BandLaw) (hp : s.plate? e.header.plate = some p) (hb : p.bands[e.header.band]? = some b)
    (hstate : b.state = .empty ∨ b.state = .filling) (hnone : b.buffer = none) : b.needs = true := by
  obtain ⟨-, -, hbelow, -, -, -⟩ := (h _ p hp).2 _ b hb
  have hlt := hbelow (by tauto)
  have hpos : 0 < b.expected := by omega
  rcases hstate with hs | hs <;> simp [Band.needs, hnone, hs, hpos]

theorem given_reservationLaw {u : State} {b : Band} (h : s.ReservationLaw) (hqueue : s.QueueLaw)
    (hp : s.plate? e.header.plate = some p) (hb : p.bands[e.header.band]? = some b)
    (hn : b.buffer = some n ∧ s.pool.free = free ∨ b.buffer = none ∧ s.pool.free = n :: free)
    (hneeds : b.buffer = none → b.needs = true) (hgrant : b.buffer = none → s.grantable e.header.plate = true)
    (htable : u.table = (s.modBand e.header.plate e.header.band (Band.given n)).table) (hpool : u.pool = ⟨free⟩) :
    u.ReservationLaw := by
  set v := s.modBand e.header.plate e.header.band (Band.given n) with hv
  have hneed (id : Nat) : u.needOf id = v.needOf id := by simp [State.needOf, plate?_of_table htable]
  have hhold (id : Nat) : u.holds id = v.holds id := by simp [State.holds, plate?_of_table htable]
  have hq : u.table.queue = s.table.queue := by rw [htable]; rfl
  have hgiven : (b.given n).needs = false := by simp [Band.needs, Band.given]
  have hown := needOf_modBand (f := Band.given n) hp hb
  rw [hgiven, ← hv] at hown
  rcases hn with ⟨hbuf, hfree⟩ | ⟨hbuf, hfree⟩
  · refine h.of_le hq (fun id _ => ?_) (fun id hid => ?_) (by rw [hpool, hfree])
    · rw [hneed]
      by_cases hid : id = e.header.plate
      · simp only [Bool.false_eq_true, if_false] at hown
        rw [hid]
        omega
      · exact (needOf_modBand_other hid).le
    · rw [hhold] at hid
      refine holds_modBand (fun q a hq ha _ => ?_) hid
      obtain rfl : p = q := Option.some.inj (hp.symm.trans hq)
      obtain rfl : b = a := Option.some.inj (hb.symm.trans ha)
      simp [hbuf]
  · refine h.grant (by obtain ⟨-, hnodup, -⟩ := hqueue; exact hnodup) hq (hgrant hbuf)
      (fun x hx => by rw [hneed]; exact needOf_modBand_other hx) ?_
      (fun x hx => by rw [hhold]; exact holds_modBand_other hx) (by rw [hpool, hfree]; rfl)
    rw [hneed]
    simp only [hneeds hbuf, if_true, Bool.false_eq_true, if_false] at hown
    omega

/-- An entry given to its renderer (R53). -/
theorem giveEntry_steady {b : Band} (he : s.segs.queue.find? (s.offered kind) = some e)
    (hfree : s.rendererFree kind = true) (hp : s.plate? e.header.plate = some p) (hb : p.bands[e.header.band]? = some b)
    (hn : s.bufferFor b = some (n, free)) : Steady s (s.giveEntry p e n free) := by
  have hoffer : s.offered kind e = true := List.find?_some he
  simp only [State.offered, Bool.and_eq_true, decide_eq_true_eq] at hoffer
  obtain ⟨hkind, hel⟩ := hoffer
  obtain ⟨hqueued, hlinked, q, c, hq, hc, hlive, hnext, hstate, hrend, hbuf⟩ := (eligible_iff s e).mp hel
  obtain rfl : p = q := Option.some.inj (hp.symm.trans hq)
  obtain rfl : b = c := Option.some.inj (hb.symm.trans hc)
  obtain ⟨hpid, -⟩ := plate?_some hp
  obtain ⟨before, after, hold, hnew⟩ := giveEntry_queue (p := p) (n := n) (free := free) hkind he
  obtain ⟨l, r, hworks, hworks'⟩ := giveEntry_works (p := p) (n := n) (free := free) hkind hfree
  have htable := giveEntry_table s p e n free
  rw [hpid] at htable
  have hplates (id : Nat) : (s.giveEntry p e n free).plate? id
      = (s.modBand e.header.plate e.header.band (Band.given n)).plate? id := plate?_of_table htable id
  have hentries : ∀ x ∈ (s.giveEntry p e n free).segs.queue, x.live = true →
      ∃ x' ∈ s.segs.queue, x'.live = true ∧ x'.header = x.header ∧ x'.linked = x.linked := by
    intro x hx hlive
    rw [hnew, List.mem_append, List.mem_cons] at hx
    rw [hold]
    rcases hx with hx | rfl | hx
    · exact ⟨x, by simp [hx], hlive, rfl, rfl⟩
    · exact ⟨e, by simp, by simp [Entry.live, hqueued], rfl, rfl⟩
    · exact ⟨x, by simp [hx], hlive, rfl, rfl⟩
  have hqueue (h : s.QueueLaw) : (s.giveEntry p e n free).QueueLaw :=
    State.QueueLaw.congr (h.modPlate e.header.plate (f := fun p => p.modBand e.header.band (Band.given n)) (fun _ => rfl)
      fun _ => rfl) htable (by simp) (by simp)
  have hsegs (h : s.SegmentLaw) : (s.giveEntry p e n free).SegmentLaw := h.giveEntry p e n free kind he hfree
  exact
    { link := fun h => by simpa using h
      ring := fun h => by
        obtain ⟨hroom, hring⟩ := h
        rw [hold] at hroom hring
        refine ⟨by simpa [hnew] using hroom, ?_⟩
        rw [hnew]
        simpa [heldRing] using hring
      table := fun h => by
        rw [htable]
        exact h.modPlate e.header.plate (f := fun p => p.modBand e.header.band (Band.given n)) (fun _ => rfl) fun _ _ hb => hb
      marks := fun h => by simpa using h
      stores := fun h => stores_of (by simp) (by simp) h
      segs := hsegs
      queue := hqueue
      core := fun h =>
        { queue := hqueue h.queue
          segs := hsegs h.segs
          bands := State.BandLaw.congr (h.bands.modBand fun q a hq ha hshape => by
            obtain rfl : p = q := Option.some.inj (hp.symm.trans hq)
            obtain rfl : b = a := Option.some.inj (hb.symm.trans ha)
            exact given_shaped n hstate hshape) htable
          renders := h.renders.give (k := workOf p e n) hworks hworks' hplates hlinked hp hb hrend hnext hentries
          buffers := given_bufferLaw h.buffers h.queue.1 hp hb (bufferFor_cases hn) htable (giveEntry_pool s p e n free)
            (unlinked_given hlinked hworks hworks')
          reservation := given_reservationLaw h.reservation h.queue hp hb (bufferFor_cases hn)
            (given_needs h.bands hp hb hstate) (fun hnone => (hbuf.resolve_left fun hc => hc hnone).2) htable
            (giveEntry_pool s p e n free) }
      taken := by simp
      decided := fun m h hd => by
        refine State.DecidedTo.congr (hd.modBand (id := e.header.plate) (b := e.header.band) (f := Band.given n) ?_) htable
          (by simp [State.modBand])
        exact fun _ _ _ _ _ h => h }

theorem startRender_keeps (he : s.segs.queue.find? (s.offered kind) = some e) (hfree : s.rendererFree kind = true) :
    Keeps s (s.startRender e) := by
  unfold State.startRender
  split
  next p hp =>
    split
    next n free hn =>
      obtain ⟨b, hb, hn⟩ := Option.bind_eq_some_iff.mp hn
      exact (giveEntry_steady he hfree hp hb hn).keeps_same (by simp)
    · exact .refl s
  · exact .refl s

end give

end Sys2Proof.Machine

/-! The end of a render keeps the laws. -/

namespace Sys2Proof.Machine

/-- The renderer of a kind is at work on `k`. -/
def State.Renders (s : State) (kind : SegKind) (k : Work) : Prop :=
  match kind with
  | .line => s.decoder.map (fun d => d.work) = some k
  | .tone => s.screener.map (fun d => d.work) = some k

/-- A band whose render's result is discarded. -/
def Band.cleared (b : Band) : Band := { b with rendering := false, buffer := none }

/-- What the end of a render does to the table and the pool: its band advances, or the result is discarded from its band,
or from no band. -/
inductive State.Rendered (s u : State) (k : Work) : Prop
  | advanced (p : Plate) (b : Band) (target : s.target? k.entry = some (p, b))
      (table : u.table = (s.modBand k.entry.header.plate k.entry.header.band Band.advanced).table) (pool : u.pool = s.pool)
  | discarded (target : s.target? k.entry = none) (linked : k.entry.linked = true)
      (table : u.table = (s.modBand k.entry.header.plate k.entry.header.band Band.cleared).table)
      (pool : u.pool = ⟨s.pool.free ++ [k.buffer]⟩)
  | orphaned (linked : k.entry.linked = false) (table : u.table = s.table) (pool : u.pool = ⟨s.pool.free ++ [k.buffer]⟩)

section ends
variable {s : State} {kind : SegKind} {k : Work}

theorem advanceBand_table (t : State) (p : Plate) (b : Band) (h : Header) :
    (t.advanceBand p b h).table = (t.modBand p.id h.band Band.advanced).table := by
  unfold State.advanceBand
  dsimp only
  split
  · simp
  · rfl

theorem target?_of_table {t u : State} (h : u.table = t.table) (e : Entry) : u.target? e = t.target? e := by
  simp [State.target?, plate?_of_table h]

theorem modBand_table {t u : State} (h : u.table = t.table) (id b : Nat) (f : Band → Band) :
    (u.modBand id b f).table = (t.modBand id b f).table := by
  simp [State.modBand, State.modPlate, h]

/-- The state as a renderer is free and its entry RENDERED, before the result goes anywhere. -/
def State.renderLeft (s : State) (kind : SegKind) : State :=
  (s.freeRenderer kind).withSegs
    { s.segs with queue := moveEntries (fun e => decide (e.header.kind = kind)) .rendering .rendered s.segs.queue }

theorem renderLeft_target? (s : State) (kind : SegKind) (e : Entry) : (s.renderLeft kind).target? e = s.target? e :=
  target?_of_table (by simp [State.renderLeft]) e

theorem endRenderCore_advances {p : Plate} {b : Band} (kind : SegKind) (h : s.target? k.entry = some (p, b)) :
    s.endRenderCore kind k = (((s.renderLeft kind).advanceBand p b k.entry.header).withScreens
      (returnUse k.entry.header s.screens)).releaseRing := by
  have hleft := (renderLeft_target? s kind k.entry).trans h
  unfold State.renderLeft at hleft
  simp only [State.endRenderCore, freeRenderer_frame, hleft, withSegs_screens, advanceBand_frame]
  rfl

theorem endRenderCore_discards (kind : SegKind) (h : s.target? k.entry = none) :
    s.endRenderCore kind k = (((s.renderLeft kind).discardResult k).withScreens
      (returnUse k.entry.header s.screens)).releaseRing := by
  have hleft := (renderLeft_target? s kind k.entry).trans h
  unfold State.renderLeft at hleft
  simp only [State.endRenderCore, freeRenderer_frame, hleft, withSegs_screens, discardResult_frame]
  rfl

theorem endRenderCore_rendered (s : State) (kind : SegKind) (k : Work) : s.Rendered (s.endRenderCore kind k) k := by
  have htable : (s.renderLeft kind).table = s.table := by simp [State.renderLeft]
  have hpool : (s.renderLeft kind).pool = s.pool := by simp [State.renderLeft]
  rcases htarget : s.target? k.entry with _ | ⟨p, b⟩
  · rw [endRenderCore_discards kind htarget]
    by_cases hl : k.entry.linked = true
    · refine .discarded htarget hl ?_ (by simp [State.discardResult, hl, State.modBand, State.modPlate, State.returnBuffers, hpool])
      rw [← modBand_table htable]
      simp only [State.discardResult, hl, if_true, State.returnBuffers, releaseRing_frame, withScreens_table, withPool_table]
      rfl
    · have hl : k.entry.linked = false := by simpa using hl
      exact .orphaned hl (by simp [State.discardResult, hl, State.returnBuffers, htable])
        (by simp [State.discardResult, hl, State.returnBuffers, hpool])
  · rw [endRenderCore_advances kind htarget]
    obtain ⟨-, hplate, -⟩ := (target?_iff s k.entry p b).mp htarget
    obtain ⟨hid, -⟩ := plate?_some hplate
    refine .advanced p b htarget ?_ (by simp [hpool])
    rw [← modBand_table htable, ← hid]
    simpa using advanceBand_table (s.renderLeft kind) p b k.entry.header

theorem endRenderCore_works (hk : s.Renders kind k) :
    ∃ l r, s.works = l ++ k :: r ∧ (s.endRenderCore kind k).works = l ++ r := by
  obtain ⟨hdec, hscr, -⟩ := endRenderCore_parts s kind k
  unfold State.works
  rw [hdec, hscr]
  cases kind with
  | line => exact ⟨[], (s.screener.map Screen.work).toList, by rw [show s.decoder.map Decode.work = some k from hk]; simp, by simp⟩
  | tone => exact ⟨(s.decoder.map Decode.work).toList, [], by rw [show s.screener.map Screen.work = some k from hk]; simp, by simp⟩

/-- The entries left live stand as they were, and were not the render's. -/
theorem endRenderCore_entries {e : Entry} (he : e ∈ (s.endRenderCore kind k).segs.queue) (hlive : e.live = true) :
    e ∈ s.segs.queue ∧ ¬(e.state = .rendering ∧ e.header.kind = kind) := by
  obtain ⟨-, -, hsegs, -⟩ := endRenderCore_parts s kind k
  rw [hsegs] at he
  obtain ⟨a, ha, rfl⟩ := List.mem_map.mp ((List.dropWhile_suffix _).subset he)
  split at hlive
  · simp [Entry.live] at hlive
  next hn => rw [if_neg hn]; exact ⟨ha, hn⟩

/-- The entry of the renderer's work is the RENDERING one of its kind. -/
theorem State.SegmentLaw.work_mem (h : s.SegmentLaw) (hk : s.Renders kind k) :
    k.entry ∈ s.segs.queue ∧ k.entry.state = .rendering ∧ k.entry.header.kind = kind := by
  obtain ⟨-, hline, htone, -⟩ := h
  have hmem : k.entry ∈ s.segs.queue.filter fun e => decide (e.state = .rendering ∧ e.header.kind = kind) := by
    cases kind with
    | line =>
      obtain ⟨d, hd, rfl⟩ := Option.map_eq_some_iff.mp hk
      rw [hline, hd]
      simp
    | tone =>
      obtain ⟨d, hd, rfl⟩ := Option.map_eq_some_iff.mp hk
      rw [htone, hd]
      simp
  simpa using hmem

/-- No other live entry has the identity of the render's entry. -/
theorem State.SegmentLaw.seq_ne (h : s.SegmentLaw) (hk : s.Renders kind k) {e : Entry} (he : e ∈ s.segs.queue)
    (hlive : e.live = true) (hnot : ¬(e.state = .rendering ∧ e.header.kind = kind))
    (hplate : e.header.plate = k.entry.header.plate) (hband : e.header.band = k.entry.header.band) :
    e.header.seq ≠ k.entry.header.seq := by
  intro hseq
  obtain ⟨hmem, hstate, hkind⟩ := h.work_mem hk
  obtain ⟨-, -, -, hnodup, -⟩ := h
  have hwork : k.entry ∈ s.segs.queue.filter Entry.live := List.mem_filter.mpr ⟨hmem, by simp [Entry.live, hstate]⟩
  have hsame := List.inj_on_of_nodup_map hnodup (List.mem_filter.mpr ⟨he, hlive⟩) hwork
    (by simp [Header.identity, hplate, hband, hseq])
  exact hnot (hsame ▸ ⟨hstate, hkind⟩)

/-! ### The band as its render ends -/

theorem advanced_shaped {b : Band} (hb : b.state = .empty ∨ b.state = .filling) (h : b.Shaped true) :
    b.advanced.Shaped true := by
  obtain ⟨-, -, hbelow, -, -, -⟩ := h
  have hlt := hbelow (by tauto)
  unfold Band.Shaped Band.advanced
  by_cases hlast : b.nextSeq + 1 = b.expected <;> simp [hlast] <;> omega

theorem cleared_shaped {live : Bool} {b : Band} (h : b.Shaped live) : b.cleared.Shaped live := by
  obtain ⟨hblank, hempty, hbelow, hdone, -, -⟩ := h
  exact ⟨hblank, hempty, hbelow, hdone, nofun, fun h => absurd rfl h⟩

/-- The band of a linked work, where it is not the render's target: it holds the buffer, and no render advances it. -/
theorem State.RenderLaw.work_band (h : s.RenderLaw) (hmem : k ∈ s.works) (hk : k.entry.linked = true) :
    ∃ p b, s.plate? k.entry.header.plate = some p ∧ p.bands[k.entry.header.band]? = some b ∧ b.rendering = true
      ∧ b.buffer = some k.buffer ∧ (p.live = true → b.state = .empty ∨ b.state = .filling → k.entry.header.seq = b.nextSeq) := by
  obtain ⟨hinto, -⟩ := h
  exact hinto k hmem hk

theorem starved_of_no_target (hs : s.BandLaw) {p : Plate} {b : Band} (hp : s.plate? k.entry.header.plate = some p)
    (hb : p.bands[k.entry.header.band]? = some b) (hr : b.rendering = true) (hk : k.entry.linked = true)
    (hnone : s.target? k.entry = none) (hlive : p.live = true) : b.state = .starved := by
  obtain ⟨-, -, -, -, hrend, -⟩ := (hs _ p hp).2 _ b hb
  have hnot : ¬(b.state = .empty ∨ b.state = .filling) := fun hstate => by
    have := (target?_iff s k.entry p b).mpr ⟨hk, hp, hb, (live_iff p).mp hlive, hstate⟩
    rw [hnone] at this
    cases this
  tauto

end ends

/-! ### The laws after the end of a render -/

section laws
variable {s u : State} {k : Work} {l r : List Work}

theorem State.Rendered.bounded (h : s.Rendered u k) (hs : s.table.Bounded) : u.table.Bounded := by
  have hmod (id b : Nat) (f : Band → Band) : (s.modBand id b f).table.Bounded :=
    hs.modPlate id (f := fun p => p.modBand b f) (fun _ => rfl) fun _ _ hb => hb
  cases h with
  | advanced p b _ htable _ => rw [htable]; exact hmod _ _ _
  | discarded _ _ htable _ => rw [htable]; exact hmod _ _ _
  | orphaned _ htable _ => rwa [htable]

theorem State.Rendered.queueLaw (h : s.Rendered u k) (he : u.engine = s.engine) (hs : s.QueueLaw) : u.QueueLaw := by
  have hmod {f : Band → Band} {id b : Nat} (htable : u.table = (s.modBand id b f).table) : u.QueueLaw :=
    State.QueueLaw.congr (hs.modPlate id (f := fun p => p.modBand b f) (fun _ => rfl) fun _ => rfl) htable
      (by simp [he]) (by simp [he])
  cases h with
  | advanced p b _ htable _ => exact hmod htable
  | discarded _ _ htable _ => exact hmod htable
  | orphaned _ htable _ => exact hs.congr htable (by rw [he]) (by rw [he])

theorem State.Rendered.bandLaw (h : s.Rendered u k) (hs : s.BandLaw) : u.BandLaw := by
  cases h with
  | advanced p b htarget htable _ =>
    obtain ⟨-, hp, hb, hlive, hstate⟩ := (target?_iff s k.entry p b).mp htarget
    refine State.BandLaw.congr (hs.modBand fun q a hq ha hshape => ?_) htable
    obtain rfl : p = q := Option.some.inj (hp.symm.trans hq)
    obtain rfl : b = a := Option.some.inj (hb.symm.trans ha)
    rw [(live_iff p).mpr hlive] at hshape ⊢
    exact advanced_shaped hstate hshape
  | discarded _ _ htable _ => exact State.BandLaw.congr (hs.modBand fun _ _ _ _ => cleared_shaped) htable
  | orphaned _ htable _ => exact hs.congr htable

theorem State.Rendered.decidedTo (h : s.Rendered u k) (he : u.engine = s.engine) {n : Nat} (hs : s.DecidedTo n) :
    u.DecidedTo n := by
  cases h with
  | advanced p b htarget htable _ =>
    obtain ⟨-, hp, hb, -, hstate⟩ := (target?_iff s k.entry p b).mp htarget
    refine State.DecidedTo.congr (hs.modBand fun q a more hq ha hdec => ?_) htable (by simp [he, State.modBand])
    obtain rfl : p = q := Option.some.inj (hp.symm.trans hq)
    obtain rfl : b = a := Option.some.inj (hb.symm.trans ha)
    rcases hstate with hs | hs <;> simp [Band.Decided, hs] at hdec
  | discarded _ _ htable _ =>
    exact State.DecidedTo.congr (hs.modBand (f := Band.cleared) fun _ _ _ _ _ hdec => hdec) htable (by simp [he, State.modBand])
  | orphaned _ htable _ => exact hs.congr htable (by rw [he])

theorem unlinked_leaves (hk : k.entry.linked = true) (hs : s.works = l ++ k :: r) (hu : u.works = l ++ r) :
    u.works.filter (fun k => !k.entry.linked) = s.works.filter fun k => !k.entry.linked := by
  rw [hs, hu, List.filter_append, List.filter_append, List.filter_cons_of_neg (by simp [hk])]

theorem State.Rendered.bufferLaw (h : s.Rendered u k) (hs : s.BufferLaw) (hrenders : s.RenderLaw)
    (hnodup : (s.table.plates.map Plate.id).Nodup) (hworks : s.works = l ++ k :: r) (hworks' : u.works = l ++ r) :
    u.BufferLaw := by
  intro n
  rw [← hs n, State.placesOf, State.placesOf]
  cases h with
  | advanced p b htarget htable hpool =>
    obtain ⟨hlinked, hp, hb, -⟩ := (target?_iff s k.entry p b).mp htarget
    have := modBand_held (f := Band.advanced) (n := n) (x := 0) (y := 0) hnodup hp hb rfl
    rw [htable, hpool, unlinked_leaves hlinked hworks hworks']
    omega
  | discarded _ hlinked htable hpool =>
    obtain ⟨p, b, hp, hb, -, hbuf, -⟩ := hrenders.work_band (hworks ▸ by simp) hlinked
    have := modBand_held (f := Band.cleared) (n := n) (x := [k.buffer].count n) (y := 0) hnodup hp hb
      (by simp [Band.cleared, hbuf])
    rw [htable, hpool, unlinked_leaves hlinked hworks hworks', List.count_append]
    omega
  | orphaned hlinked htable hpool =>
    rw [htable, hpool, hworks, hworks', List.filter_append, List.filter_append, List.filter_cons_of_pos (by simp [hlinked]),
      List.map_append, List.map_append, List.map_cons]
    simp only [List.count_append, List.count_cons, List.count_nil]
    omega

theorem advanced_needs {b : Band} (hb : b.state = .empty ∨ b.state = .filling) : b.advanced.needs = b.needs := by
  unfold Band.needs Band.advanced
  rcases hb with hb | hb <;> by_cases hlast : b.nextSeq + 1 = b.expected <;> simp [hb, hlast]

theorem State.Rendered.reservationLaw (h : s.Rendered u k) (hs : s.ReservationLaw) (hqueue : s.QueueLaw)
    (hbands : s.BandLaw) (hrenders : s.RenderLaw) (hmem : k ∈ s.works) : u.ReservationLaw := by
  have hmod {f : Band → Band} {p : Plate} {b : Band} (hp : s.plate? k.entry.header.plate = some p)
      (hb : p.bands[k.entry.header.band]? = some b)
      (htable : u.table = (s.modBand k.entry.header.plate k.entry.header.band f).table)
      (hneeds : p.live = true → (f b).needs = true → b.needs = true)
      (hbuf : ∀ a : Band, (f a).buffer.isSome → a.buffer.isSome) (hfree : s.pool.free.length ≤ u.pool.free.length) :
      u.ReservationLaw := by
    refine hs.of_le (by rw [htable]; rfl) (fun id hid => ?_) (fun id hid => ?_) hfree
    · have hneed : u.needOf id = (s.modBand k.entry.header.plate k.entry.header.band f).needOf id := by
        simp [State.needOf, plate?_of_table htable]
      rw [hneed]
      by_cases hplate : id = k.entry.header.plate
      · obtain ⟨-, -, hlive, -⟩ := (queueLaw_iff s).mp hqueue
        obtain ⟨q, hq, hqlive⟩ := (hlive id).mp hid
        rw [hplate] at hq ⊢
        obtain rfl : p = q := Option.some.inj (hp.symm.trans hq)
        have := needOf_modBand (f := f) hp hb
        by_cases hn : (f b).needs = true
        · simp only [hn, hneeds hqlive hn, if_true] at this
          omega
        · simp only [hn, Bool.false_eq_true, if_false] at this
          omega
      · exact (needOf_modBand_other hplate).le
    · have hhold : u.holds id = (s.modBand k.entry.header.plate k.entry.header.band f).holds id := by
        simp [State.holds, plate?_of_table htable]
      rw [hhold] at hid
      exact holds_modBand (fun _ a _ _ => hbuf a) hid
  cases h with
  | advanced p b htarget htable hpool =>
    obtain ⟨-, hp, hb, -, hstate⟩ := (target?_iff s k.entry p b).mp htarget
    exact hmod hp hb htable (fun _ hn => advanced_needs hstate ▸ hn) (fun _ => id) (by rw [hpool])
  | discarded htarget hlinked htable hpool =>
    obtain ⟨p, b, hp, hb, hr, -, -⟩ := hrenders.work_band hmem hlinked
    refine hmod hp hb htable (fun hlive hn => ?_) (fun _ hsome => by simp [Band.cleared] at hsome) (by rw [hpool]; simp)
    simp [Band.needs, Band.cleared, starved_of_no_target hbands hp hb hr hlinked htarget hlive] at hn
  | orphaned _ htable hpool =>
    refine hs.of_le (by rw [htable]) (fun id _ => ?_) (fun id hid => ?_) (by rw [hpool]; simp)
    · simp [State.needOf, plate?_of_table htable]
    · simpa [State.holds, plate?_of_table htable] using hid

end laws

end Sys2Proof.Machine

/-! LINE_DECODE_END and SCREEN_RENDER_END keep the laws. -/

namespace Sys2Proof.Machine

section ends
variable {s : State} {kind : SegKind} {k : Work}

theorem works_of_renders (hk : s.Renders kind k) : k ∈ s.works := by
  obtain ⟨l, r, hworks, -⟩ := endRenderCore_works hk
  rw [hworks]
  simp

theorem endRenderCore_renderLaw (hs : s.RenderLaw) (hsegs : s.SegmentLaw) (hk : s.Renders kind k) :
    (s.endRenderCore kind k).RenderLaw := by
  obtain ⟨l, r, hworks, hworks'⟩ := endRenderCore_works hk
  have hentry {e : Entry} (he : e ∈ (s.endRenderCore kind k).segs.queue) (hlive : e.live = true) :
      e ∈ s.segs.queue ∧ e.live = true ∧ e.header = e.header ∧ e.linked = e.linked :=
    ⟨(endRenderCore_entries he hlive).1, hlive, rfl, rfl⟩
  cases endRenderCore_rendered s kind k with
  | advanced p b htarget htable hpool =>
    obtain ⟨hlinked, hp, hb, hplive, hstate⟩ := (target?_iff s k.entry p b).mp htarget
    obtain ⟨q, c, hq, hc, -, -, hnext⟩ := hs.work_band (works_of_renders hk) hlinked
    obtain rfl : p = q := Option.some.inj (hp.symm.trans hq)
    obtain rfl : b = c := Option.some.inj (hb.symm.trans hc)
    refine hs.leave hworks hworks' (plate?_of_table htable) hlinked (fun _ => rfl) fun e he hlive => ?_
    obtain ⟨hmem, hnot⟩ := endRenderCore_entries he hlive
    refine ⟨e, hmem, hlive, rfl, rfl, fun q a hq ha _ hplate hband hle => ?_⟩
    have hne := hsegs.seq_ne hk hmem hlive hnot hplate hband
    rw [hnext ((live_iff p).mpr hplive) hstate] at hne
    rw [hplate] at hq
    obtain rfl : p = q := Option.some.inj (hp.symm.trans hq)
    rw [hband] at ha
    obtain rfl : b = a := Option.some.inj (hb.symm.trans ha)
    change b.nextSeq + 1 ≤ _
    omega
  | discarded _ hlinked htable _ =>
    exact hs.leave hworks hworks' (plate?_of_table htable) hlinked (fun _ => rfl) fun e he hlive =>
      ⟨e, (endRenderCore_entries he hlive).1, hlive, rfl, rfl, fun _ _ _ _ _ _ _ hle => hle⟩
  | orphaned hlinked htable _ =>
    exact hs.leave_unlinked hworks hworks' htable hlinked fun e he hlive =>
      ⟨e, (endRenderCore_entries he hlive).1, hlive, rfl, rfl⟩

theorem tellReady_bounded (id band : Nat) (h : s.link.Bounded) : (s.tellReady id band).link.Bounded := by
  unfold State.tellReady
  dsimp only
  split
  · exact (h.post _).post _
  · exact h.post _

theorem endRenderCore_link (s : State) (kind : SegKind) (k : Work) (h : s.link.Bounded) :
    (s.endRenderCore kind k).link.Bounded := by
  have hleft : (s.renderLeft kind).link = s.link := by simp [State.renderLeft]
  rcases htarget : s.target? k.entry with _ | ⟨p, b⟩
  · rw [endRenderCore_discards kind htarget]
    simpa [hleft] using h
  · rw [endRenderCore_advances kind htarget]
    have hadvance : ((s.renderLeft kind).advanceBand p b k.entry.header).link.Bounded := by
      unfold State.advanceBand
      dsimp only
      split
      · exact tellReady_bounded _ _ (by simpa [State.modBand, hleft] using h)
      · simpa [State.modBand, hleft] using h
    simpa using hadvance

theorem endRenderCore_steady (hk : s.Renders kind k) : Steady s (s.endRenderCore kind k) := by
  have hend := endRenderCore_rendered s kind k
  obtain ⟨l, r, hworks, hworks'⟩ := endRenderCore_works hk
  obtain ⟨-, -, hsegs, hscreens, -⟩ := endRenderCore_parts s kind k
  have hengine : (s.endRenderCore kind k).engine = s.engine := by simp
  exact
    { link := endRenderCore_link s kind k
      ring := fun h => by
        refine h.of_suffix (moveEntries (fun e => decide (e.header.kind = kind)) .rendering .rendered s.segs.queue) ?_
          (length_moveEntries _ _ _ _) (heldRing_moveEntries _ _ _ _)
        rw [hsegs]
        refine (List.dropWhile_suffix _).trans ?_
        simp [moveEntries]
      table := hend.bounded
      marks := fun h => by simpa using h
      stores := fun h => stores_of (by rw [hscreens, returnUse_length]) (by simp) h
      segs := fun h => h.endRenderCore kind k hk
      queue := hend.queueLaw hengine
      core := fun h =>
        { queue := hend.queueLaw hengine h.queue
          segs := h.segs.endRenderCore kind k hk
          bands := hend.bandLaw h.bands
          renders := endRenderCore_renderLaw h.renders h.segs hk
          buffers := hend.bufferLaw h.buffers h.renders h.queue.1 hworks hworks'
          reservation := hend.reservationLaw h.reservation h.queue h.bands h.renders (works_of_renders hk) }
      taken := by rw [hengine]
      decided := fun _ _ hd => hend.decidedTo hengine hd }

theorem endRender_keeps (hk : s.Renders kind k) : Keeps s (s.endRender kind k) := by
  have hcore : Keeps s (s.endRenderCore kind k) := (endRenderCore_steady hk).keeps_same (by simp)
  rw [endRender_eq]
  refine Keeps.trans ?_ (settleLead_keeps _)
  rcases renderEnded_eq s kind k with h | ⟨id, h⟩
  · rwa [h]
  · rw [h]
    exact hcore.trans ((countClipped_steady _ id).keeps_same (by simp [State.countClipped]))

theorem endDecode_keeps {d : Decode} (hd : s.decoder = some d) : Keeps s (endDecode d s) := by
  have hrenders {t : State} (ht : t.decoder = s.decoder) : t.Renders .line d.work := by
    simp [State.Renders, ht, hd]
  unfold endDecode
  split
  · exact ((contentRecord_steady s d.work).keeps_same (by simp)).trans (endRender_keeps (hrenders (by simp)))
  · exact endRender_keeps (hrenders rfl)

end ends

end Sys2Proof.Machine

/-! PLATE RELEASE keeps the laws. -/

namespace Sys2Proof.Machine

/-! ### The buffers that works hold in a plate's bands -/

/-- The buffers in a plate's bands are those of the works in them, where every band with a buffer has a work. -/
theorem count_buffers_of_works {ks : List Work} {bands : List Band} (n : Nat)
    (hin : ∀ k ∈ ks, ∃ b, bands[k.entry.header.band]? = some b ∧ b.buffer = some k.buffer)
    (hpair : ks.Pairwise fun k j => k.entry.header.band ≠ j.entry.header.band)
    (hout : ∀ i b, bands[i]? = some b → b.buffer ≠ none → ∃ k ∈ ks, k.entry.header.band = i) :
    (bands.filterMap Band.buffer).count n = (ks.map Work.buffer).count n := by
  induction ks generalizing bands with
  | nil =>
    have hnone : bands.filterMap Band.buffer = [] := List.filterMap_eq_nil_iff.mpr fun b hb => by
      by_contra hbuf
      obtain ⟨i, hi⟩ := List.mem_iff_getElem?.mp hb
      obtain ⟨k, hk, -⟩ := hout i b hi hbuf
      cases hk
    rw [hnone]
    rfl
  | cons k ks ih =>
    obtain ⟨hne, hpair⟩ := List.pairwise_cons.mp hpair
    obtain ⟨b, hb, hbuf⟩ := hin k (List.mem_cons_self ..)
    have hcount := count_buffers_modify (f := Band.cleared) (n := n) (x := [k.buffer].count n) (y := 0) hb
      (by simp [Band.cleared, hbuf])
    have hrest := ih (bands := bands.modify k.entry.header.band Band.cleared) (fun j hj => ?_) hpair fun i c hc hcbuf => ?_
    · rw [List.map_cons, ← List.singleton_append, List.count_append, ← hrest]
      omega
    · obtain ⟨c, hc, hcbuf⟩ := hin j (List.mem_cons_of_mem _ hj)
      exact ⟨c, by rw [List.getElem?_modify, hc]; simp [hne j hj], hcbuf⟩
    · rw [List.getElem?_modify] at hc
      obtain ⟨a, ha, rfl⟩ := Option.map_eq_some_iff.mp hc
      by_cases hi : k.entry.header.band = i
      · simp [hi, Band.cleared] at hcbuf
      · rw [if_neg hi] at hcbuf
        obtain ⟨j, hj, hji⟩ := hout i a ha hcbuf
        rcases List.mem_cons.mp hj with rfl | hj
        · exact absurd hji hi
        · exact ⟨j, hj, hji⟩

section release
variable {s : State} {id : Nat} {p : Plate}

/-! ### The record and its links removed -/

theorem removePlate_plate? (s : State) (id id' : Nat) :
    (s.removePlate id).plate? id' = if id' = id then none else s.plate? id' := by
  change (s.table.plates.filter fun p => !decide (p.id = id)).find? _ = _
  rw [List.find?_filter]
  by_cases h : id' = id
  · rw [if_pos h, List.find?_eq_none]
    simp [h]
  · rw [if_neg h]
    refine congrArg (fun w => s.table.plates.find? w) (funext fun p => ?_)
    by_cases hp : p.id = id' <;> simp [hp, h]

theorem removePlate_works (s : State) (id : Nat) : (s.removePlate id).works = s.works.map (Work.unlink id) := by
  have hdecoder : (s.removePlate id).decoder.map Decode.work = (s.decoder.map Decode.work).map (Work.unlink id) := by
    cases h : s.decoder <;> simp [State.removePlate, h]
  have hscreener : (s.removePlate id).screener.map Screen.work = (s.screener.map Screen.work).map (Work.unlink id) := by
    cases h : s.screener <;> simp [State.removePlate, h]
  simp only [State.works, hdecoder, hscreener, List.map_append, Option.toList_map]

theorem unlink_header (id : Nat) (e : Entry) : (e.unlink id).header = e.header := by
  unfold Entry.unlink
  split <;> rfl

theorem unlink_live (id : Nat) (e : Entry) : (e.unlink id).live = e.live := by
  unfold Entry.unlink
  split <;> rfl

theorem unlink_linked (id : Nat) (e : Entry) : (e.unlink id).linked = true ↔ e.linked = true ∧ e.header.plate ≠ id := by
  unfold Entry.unlink
  split <;> simp_all

theorem unlink_into (id : Nat) (k : Work) (id' i : Nat) : (k.unlink id).Into id' i ↔ k.Into id' i ∧ id' ≠ id := by
  unfold Work.Into
  rw [show (k.unlink id).entry = k.entry.unlink id from rfl, unlink_linked, unlink_header]
  constructor
  · rintro ⟨⟨hl, hne⟩, rfl, rfl⟩
    exact ⟨⟨hl, rfl, rfl⟩, hne⟩
  · rintro ⟨⟨hl, rfl, rfl⟩, hne⟩
    exact ⟨⟨hl, hne⟩, rfl, rfl⟩

theorem removePlate_bounded (h : s.table.Bounded) : (s.removePlate id).table.Bounded := by
  obtain ⟨hlen, hnodup, hall⟩ := h
  change Table.Bounded { s.table with plates := s.table.plates.filter fun p => !decide (p.id = id) }
  exact ⟨(List.length_filter_le _ _).trans hlen, hnodup.sublist (List.filter_sublist.map _),
    fun p hp => hall p (List.mem_of_mem_filter hp)⟩

theorem removePlate_queueLaw (h : s.QueueLaw) (hp : s.plate? id = some p) (hlive : p.live = false) :
    (s.removePlate id).QueueLaw := by
  obtain ⟨hnodup, hqueue, hmem, hactive, htaken, hidle⟩ := (queueLaw_iff s).mp h
  refine (queueLaw_iff _).mpr ⟨hnodup.sublist (List.filter_sublist.map _), hqueue, fun id' => ?_, fun id' x hx hxa => ?_,
    fun t ht => ?_, hidle⟩
  · change id' ∈ s.table.queue ↔ _
    rw [hmem, removePlate_plate?]
    split
    next hid => simp [hid, hp, hlive]
    · rfl
  · rw [removePlate_plate?] at hx
    split at hx
    · cases hx
    · exact hactive id' x hx hxa
  · obtain ⟨x, hx, hxa⟩ := htaken t ht
    refine ⟨x, ?_, hxa⟩
    rw [removePlate_plate?, if_neg, hx]
    rintro rfl
    obtain rfl : p = x := Option.some.inj (hp.symm.trans hx)
    simp [Plate.live, hxa] at hlive

theorem removePlate_bandLaw (h : s.BandLaw) : (s.removePlate id).BandLaw := by
  intro id' x hx
  rw [removePlate_plate?] at hx
  split at hx
  · cases hx
  · exact h id' x hx

theorem removePlate_renderLaw (h : s.RenderLaw) : (s.removePlate id).RenderLaw := by
  obtain ⟨hinto, hband, hpair, hseq⟩ := h
  unfold State.RenderLaw
  simp only [removePlate_plate?, removePlate_works]
  refine ⟨fun j hj hl => ?_, fun id' x i b hx hb hr => ?_, ?_, fun e he hlive hl => ?_⟩
  · obtain ⟨k, hk, rfl⟩ := List.mem_map.mp hj
    obtain ⟨hl, hne⟩ := (unlink_linked id k.entry).mp hl
    simp only [show (k.unlink id).entry = k.entry.unlink id from rfl, unlink_header, if_neg hne]
    exact hinto k hk hl
  · split at hx
    · cases hx
    next hne =>
      obtain ⟨k, hk, hki⟩ := hband id' x i b hx hb hr
      exact ⟨k.unlink id, List.mem_map_of_mem hk, (unlink_into id k id' i).mpr ⟨hki, hne⟩⟩
  · refine List.pairwise_map.mpr (hpair.imp fun hkj id' i hk hj => ?_)
    exact hkj id' i ((unlink_into id _ id' i).mp hk).1 ((unlink_into id _ id' i).mp hj).1
  · obtain ⟨a, ha, rfl⟩ := List.mem_map.mp he
    obtain ⟨hl, hne⟩ := (unlink_linked id a).mp hl
    simp only [unlink_header, if_neg hne]
    exact hseq a ha (unlink_live id a ▸ hlive) hl

/-- A render goes into a band of the record with id `id`. -/
def Work.ofPlate (id : Nat) (k : Work) : Bool := k.entry.linked && decide (k.entry.header.plate = id)

/-- The works that have lost their record: those that had, and those into the record now removed. -/
theorem count_orphans (ks : List Work) (id n : Nat) :
    (((ks.map (Work.unlink id)).filter fun k => !k.entry.linked).map Work.buffer).count n
      = ((ks.filter fun k => !k.entry.linked).map Work.buffer).count n
        + ((ks.filter (Work.ofPlate id)).map Work.buffer).count n := by
  induction ks with
  | nil => rfl
  | cons k ks ih =>
    have hlink : (k.unlink id).entry.linked = (k.entry.linked && !decide (k.entry.header.plate = id)) := by
      simp only [Work.unlink, Entry.unlink]
      split <;> simp_all
    have hbuffer : (k.unlink id).buffer = k.buffer := rfl
    rw [List.map_cons, List.filter_cons, List.filter_cons, List.filter_cons, hlink, Work.ofPlate]
    cases k.entry.linked <;> cases decide (k.entry.header.plate = id) <;> simp [hbuffer, List.count_cons, ih] <;> omega

theorem removePlate_bufferLaw (h : s.BufferLaw) (hrenders : s.RenderLaw) (hbands : s.BandLaw)
    (hnodup : (s.table.plates.map Plate.id).Nodup) (hp : s.plate? id = some p) (hlive : p.live = false) :
    (s.removePlate id).BufferLaw := by
  obtain ⟨hid, l, r, hlr, hl, hr⟩ := plates_split hnodup hp
  obtain ⟨hinto, hband, hpair, -⟩ := hrenders
  have hkeep : ∀ {m : List Plate}, (∀ x ∈ m, x.id ≠ id) → m.filter (fun p => !decide (p.id = id)) = m := fun hm =>
    List.filter_eq_self.mpr fun x hx => by simp [hm x hx]
  have hplates : (s.removePlate id).table.plates = l ++ r := by
    change s.table.plates.filter (fun p => !decide (p.id = id)) = _
    rw [hlr, List.filter_append, List.filter_cons_of_neg (by simp [hid]), hkeep hl, hkeep hr]
  have hown (n : Nat) : (p.bands.filterMap Band.buffer).count n = ((s.works.filter (Work.ofPlate id)).map Work.buffer).count n := by
    refine count_buffers_of_works n (fun k hk => ?_) ?_ fun i b hb hbuf => ?_
    · obtain ⟨hk, hkown⟩ := List.mem_filter.mp hk
      obtain ⟨hlinked, hplate⟩ : k.entry.linked = true ∧ k.entry.header.plate = id := by simpa [Work.ofPlate] using hkown
      obtain ⟨q, b, hq, hb, -, hbuf, -⟩ := hinto k hk hlinked
      rw [hplate] at hq
      obtain rfl : p = q := Option.some.inj (hp.symm.trans hq)
      exact ⟨b, hb, hbuf⟩
    · refine (List.pairwise_filter.mpr (hpair.imp fun hkj hk hj heq => ?_))
      obtain ⟨hkl, hkp⟩ : _ ∧ _ := by simpa [Work.ofPlate] using hk
      obtain ⟨hjl, hjp⟩ : _ ∧ _ := by simpa [Work.ofPlate] using hj
      exact hkj id _ ⟨hkl, hkp, rfl⟩ ⟨hjl, hjp, heq.symm⟩
    · obtain ⟨-, -, -, -, -, hheld⟩ := (hbands id p hp).2 i b hb
      have hrend : b.rendering = true := by simpa [hlive] using hheld hbuf
      obtain ⟨k, hk, hkl, hkp, hkb⟩ := hband id p i b hp hb hrend
      exact ⟨k, List.mem_filter.mpr ⟨hk, by simp [Work.ofPlate, hkl, hkp]⟩, hkb⟩
  intro n
  have hunlinked := count_orphans s.works id n
  rw [← removePlate_works] at hunlinked
  rw [← h n, State.placesOf, State.placesOf, hunlinked, ← hown n, hplates, hlr]
  simp only [List.flatMap_append, List.flatMap_cons, List.count_append]
  rw [show (s.removePlate id).pool = s.pool from rfl]
  omega

theorem removePlate_reservationLaw (h : s.ReservationLaw) (hqueue : s.QueueLaw) (hp : s.plate? id = some p)
    (hlive : p.live = false) : (s.removePlate id).ReservationLaw := by
  obtain ⟨-, -, hmem, -⟩ := (queueLaw_iff s).mp hqueue
  refine h.of_le rfl (fun id' hid => ?_) (fun id' hid => ?_) (Nat.le_refl _)
  · have hne : id' ≠ id := by
      rintro rfl
      obtain ⟨q, hq, hqlive⟩ := (hmem id').mp hid
      obtain rfl : p = q := Option.some.inj (hp.symm.trans hq)
      rw [hlive] at hqlive
      cases hqlive
    simp [State.needOf, removePlate_plate?, hne]
  · by_cases hne : id' = id
    · simp [State.holds, removePlate_plate?, hne] at hid
    · simpa [State.holds, removePlate_plate?, hne] using hid

theorem removePlate_decidedTo {n : Nat} (h : s.DecidedTo n) (hqueue : s.QueueLaw) (hp : s.plate? id = some p)
    (hlive : p.live = false) : (s.removePlate id).DecidedTo n := by
  intro t ht
  have hne : t.plate ≠ id := by
    rintro rfl
    rw [live_of_taken hqueue ht hp] at hlive
    cases hlive
  rw [removePlate_plate?, if_neg hne]
  exact h t ht

/-- A plate that is not in the queue is released (R17). -/
theorem removePlate_keeps (hp : s.plate? id = some p) (hlive : p.live = false) : Keeps s (s.removePlate id) := by
  have hsteady : Steady s (s.removePlate id) :=
    { link := fun h => h
      ring := fun h => by
        obtain ⟨hroom, hring⟩ := h
        refine ⟨by simpa [State.removePlate] using hroom, ?_⟩
        have hheld : heldRing (s.segs.queue.map (Entry.unlink id)) = heldRing s.segs.queue := by
          simp only [heldRing, List.map_map, Function.comp_def, unlink_header]
        exact hheld.trans_le hring
      table := removePlate_bounded
      marks := fun h => h
      stores := fun h => h
      segs := fun h => h.removePlate id
      queue := fun h => removePlate_queueLaw h hp hlive
      core := fun h =>
        { queue := removePlate_queueLaw h.queue hp hlive
          segs := h.segs.removePlate id
          bands := removePlate_bandLaw h.bands
          renders := removePlate_renderLaw h.renders
          buffers := removePlate_bufferLaw h.buffers h.renders h.bands h.queue.1 hp hlive
          reservation := removePlate_reservationLaw h.reservation h.queue hp hlive }
      taken := rfl
      decided := fun _ hq hd => removePlate_decidedTo hd hq hp hlive }
  exact hsteady.keeps_same rfl

end release

end Sys2Proof.Machine

/-! PLATE DEFINE keeps the laws. -/

namespace Sys2Proof.Machine

/-! ### The place of a new plate (R12, R13) -/

/-- The place of a holder of buffers behind the head. -/
def State.HolderAt (s : State) (j : Nat) : Prop := 1 ≤ j ∧ ∃ id, s.table.queue[j]? = some id ∧ s.holds id = true

section place
variable {s : State} {p : Plate}

/-- Without a last holder no plate behind the head holds, and none holds behind the last holder. -/
theorem lastHolder_last {j : Nat} (hj : s.HolderAt j) : ∃ k, s.lastHolder = some k ∧ j ≤ k := by
  classical
  have hbound {i : Nat} (hi : s.HolderAt i) : i ≤ s.table.queue.length := by
    obtain ⟨-, id, hid, -⟩ := hi
    exact (List.getElem?_eq_some_iff.mp hid).1.le
  have hspec := Nat.findGreatest_spec (P := s.HolderAt) (hbound hj) hj
  have hlast : ∀ i, Nat.findGreatest s.HolderAt s.table.queue.length < i → ¬s.HolderAt i := fun i hi hholder =>
    Nat.findGreatest_is_greatest hi (hbound hholder) hholder
  obtain ⟨hk, id, hid, hholds⟩ := hspec
  refine ⟨_, lastHolder_some hk hid hholds fun i id' hi hid' => ?_, Nat.le_findGreatest (hbound hj) hj⟩
  by_contra hc
  exact hlast i hi ⟨by omega, id', hid', by simpa using hc⟩

theorem holderAt_of_lastHolder {k : Nat} (h : s.lastHolder = some k) : s.HolderAt k := by
  obtain ⟨⟨k', id⟩, hlast, rfl⟩ := Option.map_eq_some_iff.mp h
  obtain ⟨hmem, hhold⟩ := List.mem_filter.mp (List.mem_of_getLast? hlast)
  obtain ⟨hpos, hid⟩ := mem_indexed_drop_one hmem
  exact ⟨hpos, id, hid, hhold⟩

theorem State.HolderAt.lt {j : Nat} (h : s.HolderAt j) : j < s.table.queue.length := by
  obtain ⟨-, id, hid, -⟩ := h
  exact (List.getElem?_eq_some_iff.mp hid).1

theorem place_le (s : State) (p : Plate) : s.place p ≤ s.table.queue.length := by
  unfold State.place
  split
  · split
    · exact Nat.zero_le _
    next hne =>
      have hpos : 1 ≤ s.table.queue.length := List.length_pos_iff.mpr (by simpa using hne)
      split
      · exact hpos
      next k hk =>
        split
        · exact hpos
        · exact State.HolderAt.lt (holderAt_of_lastHolder hk)
  · exact Nat.le_refl _

/-- A new plate never joins at the head of a queue that has one. -/
theorem place_pos (hq : s.table.queue ≠ []) : 1 ≤ s.place p := by
  have hpos : 1 ≤ s.table.queue.length := List.length_pos_iff.mpr hq
  unfold State.place
  split
  · rw [if_neg (by simpa using hq)]
    split
    · exact Nat.le_refl _
    · split
      · exact Nat.le_refl _
      · omega
  · exact hpos

theorem needSum_mono {a b : List Nat} (h : a <+: b) : s.needSum a ≤ s.needSum b := by
  obtain ⟨c, rfl⟩ := h
  rw [needSum_append]
  exact Nat.le_add_right _ _

/-- A plate that holds buffers behind the place of a new one leaves free buffers for the plates ahead of it and the new. -/
theorem place_room {mid after : List Nat} {id : Nat} (hsplit : s.table.queue.drop (s.place p) = mid ++ id :: after)
    (hhold : s.holds id = true) :
    s.needSum (s.table.queue.take (s.place p) ++ mid) + p.need ≤ s.pool.free.length := by
  have hne : s.table.queue ≠ [] := by
    intro hc
    rw [hc] at hsplit
    simp at hsplit
  have hholder : s.HolderAt (s.place p + mid.length) := by
    refine ⟨(place_pos hne).trans (Nat.le_add_right _ _), id, ?_, hhold⟩
    rw [← List.getElem?_drop, hsplit]
    simp
  obtain ⟨k, hk, hle⟩ := lastHolder_last hholder
  have hlt := hholder.lt
  have hprefix : s.table.queue.take (s.place p) ++ mid <+: s.table.queue :=
    ⟨id :: after, by rw [List.append_assoc, ← hsplit, List.take_append_drop]⟩
  have hlen : (s.table.queue.take (s.place p) ++ mid).length ≤ k := by
    rw [List.length_append, List.length_take]
    omega
  have hroom : s.needSum (s.table.queue.take k) + p.need ≤ s.pool.free.length := by
    by_contra hc
    have hplace : k < s.place p := by
      unfold State.place
      by_cases hu : p.urgent = true
      · rw [if_pos hu, if_neg (by simpa using hne), hk]
        simp only [if_neg hc]
        omega
      · rw [if_neg hu]
        exact (holderAt_of_lastHolder hk).lt
    omega
  refine Nat.le_trans (Nat.add_le_add_right (needSum_mono ?_) _) hroom
  exact List.prefix_take_iff.mpr ⟨hprefix, hlen⟩

theorem insertIdx_eq_of_le {α : Type} {l : List α} {n : Nat} (a : α) (h : n ≤ l.length) :
    l.insertIdx n a = l.take n ++ a :: l.drop n := by
  induction l generalizing n with
  | nil =>
    obtain rfl : n = 0 := by simpa using h
    rfl
  | cons b r ih =>
    cases n with
    | zero => rfl
    | succ n => simpa using ih (by simpa using h)

end place

/-! ### A new record -/

/-- A plate record as it may join the table. -/
structure Plate.New (p : Plate) : Prop where
  state : p.state = .loading
  bands : p.bands.length = (p.height + 255) / 256
  shaped : ∀ b ∈ p.bands, b.Shaped true ∧ b.buffer = none ∧ b.rendering = false
  bounded : p.Bounded

/-- The table with a new record in it, and the queue with its id (R16). -/
def State.joined (s : State) (p : Plate) : State :=
  s.withTable ⟨s.table.plates ++ [p], s.table.queue.insertIdx (s.place p) p.id⟩

section join
variable {s : State} {p : Plate}

theorem joined_plate? (hnone : s.plate? p.id = none) (id : Nat) :
    (s.joined p).plate? id = if id = p.id then some p else s.plate? id := by
  change (s.table.plates ++ [p]).find? _ = _
  rw [List.find?_append]
  by_cases h : id = p.id
  · rw [if_pos h, h, show s.table.plates.find? _ = none from hnone]
    simp
  · rw [if_neg h]
    simp [Ne.symm h, State.plate?]

/-- A record found before stands as it was. -/
theorem joined_plate?_of_some (hnone : s.plate? p.id = none) {id : Nat} {x : Plate} (hx : s.plate? id = some x) :
    (s.joined p).plate? id = some x := by
  rw [joined_plate? hnone, if_neg, hx]
  rintro rfl
  rw [hnone] at hx
  cases hx

theorem joined_queue (s : State) (p : Plate) :
    (s.joined p).table.queue = s.table.queue.take (s.place p) ++ p.id :: s.table.queue.drop (s.place p) :=
  insertIdx_eq_of_le p.id (place_le s p)

theorem mem_joined_queue (s : State) (p : Plate) (id : Nat) :
    id ∈ (s.joined p).table.queue ↔ id = p.id ∨ id ∈ s.table.queue := by
  rw [joined_queue, List.perm_middle.mem_iff, List.mem_cons, List.take_append_drop]

theorem joined_bounded (h : s.table.Bounded) (hp : p.New) (hnone : s.plate? p.id = none) (hroom : s.table.plates.length < 8) :
    (s.joined p).table.Bounded := by
  obtain ⟨-, hnodup, hall⟩ := h
  refine ⟨by simpa [State.joined] using hroom, ?_, fun x hx => ?_⟩
  · change ((s.table.plates ++ [p]).map Plate.id).Nodup
    rw [List.map_append, List.map_singleton, List.nodup_append_comm, List.singleton_append, List.nodup_cons]
    refine ⟨fun hmem => ?_, hnodup⟩
    obtain ⟨x, hx, hid⟩ := List.mem_map.mp hmem
    exact (plate?_none s p.id).mp hnone x hx hid
  · rcases List.mem_append.mp (show x ∈ s.table.plates ++ [p] from hx) with hx | hx
    · exact hall x hx
    · rw [List.mem_singleton.mp hx]
      exact hp.bounded

theorem joined_queueLaw (h : s.QueueLaw) (hp : p.New) (hnone : s.plate? p.id = none) : (s.joined p).QueueLaw := by
  obtain ⟨hnodup, hqueue, hmem, hactive, htaken, hidle⟩ := (queueLaw_iff s).mp h
  have hnew : p.id ∉ s.table.queue := fun hc => by
    obtain ⟨x, hx, -⟩ := (hmem p.id).mp hc
    rw [hnone] at hx
    cases hx
  refine (queueLaw_iff _).mpr ⟨?_, ?_, fun id => ?_, fun id x hx hxa => ?_, fun t ht => ?_, hidle⟩
  · change ((s.table.plates ++ [p]).map Plate.id).Nodup
    rw [List.map_append, List.map_singleton, List.nodup_append_comm, List.singleton_append, List.nodup_cons]
    refine ⟨fun hmem => ?_, hnodup⟩
    obtain ⟨x, hx, hid⟩ := List.mem_map.mp hmem
    exact (plate?_none s p.id).mp hnone x hx hid
  · rw [joined_queue, List.nodup_middle, List.take_append_drop, List.nodup_cons]
    exact ⟨hnew, hqueue⟩
  · rw [mem_joined_queue, hmem, joined_plate? hnone]
    by_cases hid : id = p.id
    · simp [hid, Plate.live, hp.state]
    · simp [hid]
  · rw [joined_plate? hnone] at hx
    split at hx
    · obtain rfl := Option.some.inj hx
      rw [hp.state] at hxa
      cases hxa
    · obtain ⟨htk, hhead⟩ := hactive id x hx hxa
      refine ⟨htk, ?_⟩
      have hne : s.table.queue ≠ [] := by
        rintro hc
        simp [hc] at hhead
      have hpos := place_pos (p := p) hne
      rw [joined_queue, List.head?_append, List.head?_take, if_neg (by omega), hhead]
      rfl
  · obtain ⟨x, hx, hxa⟩ := htaken t ht
    exact ⟨x, joined_plate?_of_some hnone hx, hxa⟩

theorem joined_bandLaw (h : s.BandLaw) (hp : p.New) (hnone : s.plate? p.id = none) : (s.joined p).BandLaw := by
  intro id x hx
  rw [joined_plate? hnone] at hx
  split at hx
  · obtain rfl := Option.some.inj hx
    refine ⟨hp.bands, fun i b hb => ?_⟩
    rw [show p.live = true by simp [Plate.live, hp.state]]
    exact (hp.shaped b (List.mem_of_getElem? hb)).1
  · exact h id x hx

theorem joined_renderLaw (h : s.RenderLaw) (hp : p.New) (hnone : s.plate? p.id = none) : (s.joined p).RenderLaw := by
  obtain ⟨hinto, hband, hpair, hseq⟩ := h
  refine ⟨fun k hk hl => ?_, fun id x i b hx hb hr => ?_, hpair, fun e he hlive hl => ?_⟩
  · obtain ⟨x, b, hx, hrest⟩ := hinto k hk hl
    exact ⟨x, b, joined_plate?_of_some hnone hx, hrest⟩
  · rw [joined_plate? hnone] at hx
    split at hx
    · obtain rfl := Option.some.inj hx
      have := (hp.shaped b (List.mem_of_getElem? hb)).2.2
      rw [hr] at this
      cases this
    · exact hband id x i b hx hb hr
  · obtain ⟨x, b, hx, hrest⟩ := hseq e he hlive hl
    exact ⟨x, b, joined_plate?_of_some hnone hx, hrest⟩

theorem New.no_buffers (hp : p.New) : p.bands.filterMap Band.buffer = [] :=
  List.filterMap_eq_nil_iff.mpr fun b hb => by
    obtain ⟨-, hbuf, -⟩ := hp.shaped b hb
    exact hbuf

theorem joined_bufferLaw (h : s.BufferLaw) (hp : p.New) : (s.joined p).BufferLaw := by
  intro n
  rw [← h n]
  have hplates : (s.joined p).table.plates = s.table.plates ++ [p] := rfl
  simp only [State.placesOf, hplates, List.flatMap_append, List.flatMap_singleton, New.no_buffers hp, List.append_nil]
  rfl

theorem joined_reservationLaw (h : s.ReservationLaw) (hqueue : s.QueueLaw) (hp : p.New) (hnone : s.plate? p.id = none) :
    (s.joined p).ReservationLaw := by
  obtain ⟨-, -, hmem, -⟩ := (queueLaw_iff s).mp hqueue
  have hold {id : Nat} (hid : id ∈ s.table.queue) : (s.joined p).plate? id = s.plate? id := by
    obtain ⟨x, hx, -⟩ := (hmem id).mp hid
    rw [hx, joined_plate?_of_some hnone hx]
  have hneed {ids : List Nat} (hids : ∀ id ∈ ids, id ∈ s.table.queue) : (s.joined p).needSum ids = s.needSum ids := by
    refine congrArg List.sum (List.map_congr_left fun id hid => ?_)
    simp only [State.needOf, hold (hids id hid)]
  have hown : (s.joined p).needOf p.id = p.need := by simp [State.needOf, joined_plate? hnone]
  have hnot : (s.joined p).holds p.id = false := by
    have : p.holdsBuffer = false := by
      rw [Plate.holdsBuffer, List.any_eq_false]
      exact fun b hb => by simp [(hp.shaped b hb).2.1]
    simpa [State.holds, joined_plate? hnone] using this
  intro before id after hsplit hhold
  rw [joined_queue] at hsplit
  have hin : id ∈ s.table.queue := by
    have : id ∈ (s.joined p).table.queue := by rw [joined_queue, hsplit]; simp
    rcases (mem_joined_queue s p id).mp this with rfl | hin
    · rw [hnot] at hhold
      cases hhold
    · exact hin
  have hholds : s.holds id = true := by simpa only [State.holds, hold hin] using hhold
  change _ ≤ s.pool.free.length
  have htake : ∀ x ∈ s.table.queue.take (s.place p), x ∈ s.table.queue := fun x hx => List.mem_of_mem_take hx
  have hdrop : ∀ x ∈ s.table.queue.drop (s.place p), x ∈ s.table.queue := fun x hx => List.mem_of_mem_drop hx
  rcases List.append_eq_append_iff.mp hsplit with ⟨mid, rfl, hrest⟩ | ⟨mid, htk, hrest⟩
  · rcases mid with _ | ⟨x, mid⟩
    · obtain ⟨rfl, -⟩ := List.cons.inj hrest
      rw [hnot] at hhold
      cases hhold
    · obtain ⟨rfl, hbehind⟩ := List.cons.inj hrest
      have hroom := place_room hbehind hholds
      rw [needSum_append] at hroom
      rw [needSum_append, needSum_cons, hown, hneed htake, hneed fun y hy => hdrop y (by rw [hbehind]; simp [hy])]
      omega
  · rcases mid with _ | ⟨x, mid⟩
    · obtain ⟨rfl, -⟩ := List.cons.inj hrest
      rw [hnot] at hhold
      cases hhold
    · obtain ⟨rfl, -⟩ := List.cons.inj hrest
      have hwhole : s.table.queue = before ++ id :: (mid ++ s.table.queue.drop (s.place p)) := by
        conv_lhs => rw [← List.take_append_drop (s.place p) s.table.queue, htk]
        simp
      rw [hneed fun y hy => htake y (by rw [htk]; simp [hy])]
      exact h before id _ hwhole hholds

theorem joined_keeps (hp : p.New) (hnone : s.plate? p.id = none) (hroom : s.table.plates.length < 8) :
    Keeps s (s.joined p) := by
  have hsteady : Steady s (s.joined p) :=
    { link := fun h => h
      ring := fun h => h
      table := fun h => joined_bounded h hp hnone hroom
      marks := fun h => h
      stores := fun h => h
      segs := fun h => h.same rfl rfl rfl rfl rfl
      queue := fun h => joined_queueLaw h hp hnone
      core := fun h =>
        { queue := joined_queueLaw h.queue hp hnone
          segs := h.segs.same rfl rfl rfl rfl rfl
          bands := joined_bandLaw h.bands hp hnone
          renders := joined_renderLaw h.renders hp hnone
          buffers := joined_bufferLaw h.buffers hp
          reservation := joined_reservationLaw h.reservation h.queue hp hnone }
      taken := rfl
      decided := fun n _ hd t ht => by
        obtain ⟨x, hx, hrest⟩ := hd t ht
        exact ⟨x, joined_plate?_of_some hnone hx, hrest⟩ }
  exact hsteady.keeps_same rfl

theorem addPlate_keeps (hp : p.New) (hnone : s.plate? p.id = none) (hroom : s.table.plates.length < 8) :
    Keeps s (s.addPlate p) := by
  unfold State.addPlate
  dsimp only
  split
  · exact (joined_keeps hp hnone hroom).trans (post_calm _ _).keeps
  · exact joined_keeps hp hnone hroom

/-- The record of an accepted PLATE DEFINE is a new one (R2, R5). -/
theorem plate_new {q : PlateSpec} (hbands : q.bands.length = (q.height + 255) / 256) : q.plate.New where
  state := rfl
  bands := by simpa [PlateSpec.plate] using hbands
  shaped b hb := by
    obtain ⟨x, -, rfl⟩ := List.mem_map.mp hb
    refine ⟨?_, rfl, rfl⟩
    unfold Band.Shaped BandSpec.band
    by_cases h0 : x.expected = 0
    · simp [h0]
    · simp only [h0, if_false]
      simp
      omega
  bounded := ⟨Nat.zero_le _, Nat.zero_le _, Nat.zero_le _, Nat.zero_le _⟩

end join

end Sys2Proof.Machine

/-! The intake's commands keep the laws. -/

namespace Sys2Proof.Machine

section feed
variable {s : State}

/-! ### An OPEN -/

/-- What the checks of R28 say of an OPEN that passes them. -/
structure State.Passes (s : State) (r : RawHeader) (p : Plate) (b : Band) : Prop where
  plate : s.plate? r.plate = some p
  band : p.bands[r.band]? = some b
  twin : s.liveTwin r = false
  seq : b.nextSeq ≤ r.seq
  screen : r.segKind? = some .tone → (s.readySet r.screen).isSome = true
  entries : s.segs.queue.length < 256
  ring : r.declared ≤ s.freeRing

theorem passes_of_openCheck {r : RawHeader} (h : s.openCheck r = none) : ∃ p b, s.Passes r p b := by
  unfold State.openCheck at h
  split at h
  · cases h
  next p hp =>
    split at h
    · cases h
    · split at h
      · cases h
      next b hb =>
        split_ifs at h with _ _ hdup _ _ hscreen hroom
        rw [not_or, Nat.not_lt] at hdup
        rw [not_or, Nat.not_le, Nat.not_lt] at hroom
        obtain ⟨htwin, hseq⟩ := hdup
        obtain ⟨hentries, hring⟩ := hroom
        refine ⟨p, b, hp, hb, by simpa using htwin, hseq, fun hk => ?_, hentries, hring⟩
        rw [not_and] at hscreen
        exact Option.isSome_iff_ne_none.mpr fun hc => hscreen hk (by rw [hc]; rfl)

theorem acceptOpen_queue (s : State) (h : Header) :
    (s.acceptOpen h).segs.queue = s.segs.queue ++ [⟨h, true, s.segs.writePos, .assembling⟩] := by
  simp [State.acceptOpen]

theorem acceptOpen_screens (s : State) (h : Header) : (s.acceptOpen h).screens.length = s.screens.length := by
  simp only [State.acceptOpen, testHold_frame, setIntake_frame, withScreens_screens, withSegs_screens]
  unfold takeUse
  split <;> simp

/-- The new entry names a record, and its seq is not below its band's next seq. -/
theorem acceptOpen_renderLaw (h : s.RenderLaw) {hd : Header} {p : Plate} {b : Band} (hp : s.plate? hd.plate = some p)
    (hb : p.bands[hd.band]? = some b) (hseq : b.nextSeq ≤ hd.seq) : (s.acceptOpen hd).RenderLaw := by
  obtain ⟨hinto, hband, hpair, hold⟩ := h
  have hworks : (s.acceptOpen hd).works = s.works := by simp [State.works]
  have htable : (s.acceptOpen hd).table = s.table := by simp
  unfold State.RenderLaw
  simp only [plate?_of_table htable, hworks]
  refine ⟨hinto, hband, hpair, fun e he hlive hl => ?_⟩
  rw [acceptOpen_queue, List.mem_append, List.mem_singleton] at he
  rcases he with he | rfl
  · exact hold e he hlive hl
  · exact ⟨p, b, hp, hb, hseq⟩

theorem acceptOpen_keeps {r : RawHeader} {kind : SegKind} {mode : PaintMode} (hcheck : s.openCheck r = none)
    (hk : r.segKind? = some kind) (hi : s.feed.intake.opened = []) : Keeps s (s.acceptOpen (r.toHeader kind mode)) := by
  obtain ⟨p, b, hpass⟩ := passes_of_openCheck hcheck
  have htwin : ∀ e ∈ s.segs.queue, e.live = true → e.header.identity ≠ (r.toHeader kind mode).identity := by
    intro e he hlive hid
    obtain ⟨hplate, hband, hseq⟩ : e.header.plate = r.plate ∧ e.header.band = r.band ∧ e.header.seq = r.seq := by
      simpa [Header.identity, RawHeader.toHeader] using hid
    have : s.liveTwin r = true := List.any_eq_true.mpr ⟨e, he, by simp [hlive, hplate, hband, hseq]⟩
    rw [hpass.twin] at this
    cases this
  have hsegs (h : s.SegmentLaw) : (s.acceptOpen (r.toHeader kind mode)).SegmentLaw :=
    h.acceptOpen _ hi htwin fun hkind => by
      have hkind : kind = .tone := hkind
      subst hkind
      exact hpass.screen hk
  have hsteady : Steady s (s.acceptOpen (r.toHeader kind mode)) :=
    { link := fun h => by simpa using h
      ring := fun h => by
        obtain ⟨-, hring⟩ := h
        have hentries := hpass.entries
        have hfree := hpass.ring
        unfold State.freeRing at hfree
        have hheld : heldRing [⟨r.toHeader kind mode, true, s.segs.writePos, .assembling⟩] = r.declared := by
          simp [heldRing, RawHeader.toHeader]
        refine ⟨by rw [acceptOpen_queue, List.length_append]; exact hentries, ?_⟩
        rw [acceptOpen_queue, heldRing_append, hheld]
        omega
      table := fun h => by simpa using h
      marks := fun h => by simpa using h
      stores := stores_of (acceptOpen_screens s _) (by simp)
      segs := hsegs
      queue := fun h => h.congr (by simp) (by simp) (by simp)
      core := fun h =>
        { queue := h.queue.congr (by simp) (by simp) (by simp)
          segs := hsegs h.segs
          bands := h.bands.congr (by simp)
          renders := acceptOpen_renderLaw h.renders hpass.plate hpass.band hpass.seq
          buffers := h.buffers.congr (by simp) (by simp) (by simp [State.works])
          reservation := h.reservation.congr (by simp) (by simp) }
      taken := by simp
      decided := fun n _ hd => hd.congr (by simp) (by simp) }
  exact hsteady.keeps_same (by simp)

theorem tryOpen_keeps (r : RawHeader) (hi : s.feed.intake.opened = []) : Keeps s (s.tryOpen r) := by
  have hrefuse (reason : Refuse) : Keeps s (s.refuseOpen r reason) := (refuseOpen_steady s r reason hi).keeps_same (by simp)
  unfold State.tryOpen
  split
  · exact hrefuse _
  next hcheck =>
    split
    next kind mode hk hm => exact acceptOpen_keeps hcheck hk hi
    · exact hrefuse _

/-! ### The frames -/

theorem abandon_opened (s : State) (r : Abandon) {i : Intake} (hi : i.opened = []) :
    (s.abandon r i).feed.intake.opened = [] := by
  rcases hintake : s.feed.intake with _ | _ | seg | _
  case assembling =>
    obtain ⟨-, -, -, -, hnext, -⟩ := abandon_feed s r i
    rw [hnext seg hintake, hi]
  all_goals
    rw [abandon_of_no_segment (by simp [hintake]), hintake]
    rfl

theorem takeSelect_keeps (body : List Byte) : Keeps s (takeSelect body s) := by
  unfold takeSelect
  dsimp only
  have hi : (if s.named (field body 0 2) then Intake.selected else .unselected).opened = [] := by split <;> rfl
  exact ((abandon_calm s _ hi).trans ((setIntake_calm _ (by rw [hi, abandon_opened s _ hi])).trans (finishFrame_calm _))).keeps

theorem takeOpen_keeps (body : List Byte) : Keeps s (takeOpen body s) := by
  unfold takeOpen
  split
  · exact (finishFrame_calm s).keeps
  next h => exact (tryOpen_keeps _ (by rw [h]; rfl)).trans (finishFrame_calm _).keeps
  next h => exact (tryOpen_keeps _ (by rw [h]; rfl)).trans (finishFrame_calm _).keeps
  · exact ((abandon_calm s _ rfl).keeps.trans (tryOpen_keeps _ (abandon_opened s _ rfl))).trans (finishFrame_calm _).keeps

theorem takeData_keeps (body : List Byte) : Keeps s (takeData body s) := by
  unfold takeData
  split
  next seg h =>
    split
    · exact (setIntake_calm s (by rw [h]; rfl)).keeps
    · exact ((abandon_calm s _ rfl).trans (finishFrame_calm _)).keeps
  · exact ((count_calm s _).trans (finishFrame_calm _)).keeps
  all_goals exact (finishFrame_calm s).keeps

theorem takeClose_keeps (body : List Byte) : Keeps s (takeClose body s) := by
  unfold takeClose
  split
  next seg h =>
    refine Keeps.trans ?_ (finishFrame_calm _).keeps
    split
    · exact (abandon_calm s _ rfl).keeps
    · split
      · exact (abandon_calm s _ rfl).keeps
      · exact (completeSegment_calm s).keeps
  · exact ((count_calm s _).trans (finishFrame_calm _)).keeps
  all_goals exact (finishFrame_calm s).keeps

theorem takeBadFrame_keeps (kind : Byte) : Keeps s (takeBadFrame kind s) := by
  have habandon (u : State) : Calm u (if kind = kindSelect then (u.abandon .check .unselected).setIntake .unselected
      else u.abandon .check .skipping).finishFrame := by
    refine Calm.trans ?_ (finishFrame_calm _)
    split
    · exact (abandon_calm u _ rfl).trans (setIntake_calm _ (abandon_opened u _ rfl).symm)
    · exact abandon_calm u _ rfl
  exact ((count_calm s _).trans (habandon _)).keeps

theorem takeLoss_keeps : Keeps s (takeLoss s) := by
  have habandon : Calm s (s.abandon .overrun .unselected) := abandon_calm s _ rfl
  have hintake : Calm (s.abandon .overrun .unselected) ((s.abandon .overrun .unselected).setIntake .unselected) :=
    setIntake_calm _ (abandon_opened s _ rfl).symm
  exact ((habandon.trans hintake).trans (finishFrame_calm _)).keeps

end feed

end Sys2Proof.Machine

/-! The exposure fetch keeps the laws: the lines it begins, reads, passes and skips. -/

namespace Sys2Proof.Machine

/-- A steady change keeps every law where the engine it leaves keeps its own, and the fetch has decided what it reached. -/
theorem Steady.keeps_of {s u : State} (h : Steady s u) (hfifo : s.engine.FifoLaw → u.engine.FifoLaw)
    (hfetch : s.QueueLaw → s.engine.FetchOk → u.engine.FetchOk)
    (hdecided : s.Core → s.DecidedTo s.engine.fetchPos → u.DecidedTo u.engine.fetchPos) : Keeps s u where
  link := h.link
  ring := h.ring
  table := h.table
  marks := h.marks
  fifo := hfifo
  stores := h.stores
  segs := h.segs
  queue := h.queue
  sound hs := by
    obtain ⟨hcore, hok, hdec⟩ := (sound_iff s).mp hs
    exact (sound_iff u).mpr ⟨h.core hcore, hfetch hcore.queue hok, hdecided hcore hdec⟩

/-! ### The band decision -/

section decide
variable {s : State} {t : Taken} {p : Plate}

/-- Once its decision is made a band has been decided. -/
theorem decideBand_decided (b : Nat) (more : Prop) (ht : s.engine.taken = some t) (hp : s.plate? t.plate = some p) {q : Plate}
    {c : Band} (hq : (s.decideBand b).plate? t.plate = some q) (hc : q.bands[b]? = some c) : c.Decided more := by
  obtain ⟨hid, -⟩ := plate?_some hp
  rcases hb : p.bands[b]? with _ | x
  · rw [decideBand_no_band ht hp hb, hp] at hq
    obtain rfl := Option.some.inj hq
    rw [hb] at hc
    cases hc
  · have hstands (h : x.state = .blank ∨ x.state = .starved ∨ x.state = .exposing ∨ x.state = .exposed) :
        c.Decided more := by
      rw [plate?_of_table (decideBand_standing ht hp hb h).1, hp] at hq
      obtain rfl := Option.some.inj hq
      obtain rfl := Option.some.inj (hb.symm.trans hc)
      unfold Band.Decided
      tauto
    have hstarves (h : x.state = .empty ∨ x.state = .filling) : c.Decided more := by
      have hdoes := (decideBand_does s t p b x ht hp hb).2.2.2 h
      rw [hdoes, ← hid, (starve_does t.copy (hid ▸ hp) hb).1] at hq
      obtain rfl := Option.some.inj hq
      rw [List.getElem?_modify, hb] at hc
      obtain rfl : { x with state := .starved, buffer := if x.rendering then x.buffer else none } = c := by simpa using hc
      exact .inr (.inl rfl)
    rcases hx : x.state with _ | _ | _ | _ | _ | _ | _
    case blank => exact hstands (.inl hx)
    case empty => exact hstarves (.inl hx)
    case filling => exact hstarves (.inr hx)
    case ready =>
      rw [(decideBand_ready ht hp hb hx).1] at hq
      obtain rfl := Option.some.inj hq
      obtain rfl : { x with state := .exposing } = c := by
        simpa [Plate.withBand, (List.getElem?_eq_some_iff.mp hb).1] using hc
      exact .inr (.inr (.inl rfl))
    case exposing => exact hstands (.inr (.inr (.inl hx)))
    case exposed => exact hstands (.inr (.inr (.inr hx)))
    case starved => exact hstands (.inr (.inl hx))

/-- The band decision of line `l` of a plate of `height` lines, where it is a band's first. -/
def State.decideLine (s : State) (height l : Nat) : State :=
  if l % 256 = 0 ∧ l < height then s.decideBand (l / 256) else s

theorem decideLine_steady (s : State) (height l : Nat) : Steady s (s.decideLine height l) := by
  unfold State.decideLine
  split
  · exact decideBand_steady s _
  · exact .refl s

theorem decideLine_engine (s : State) (height l : Nat) : (s.decideLine height l).engine = s.engine := by
  unfold State.decideLine
  split <;> simp

/-- The decision of line `l` leaves every band that begins at or before it decided. -/
theorem decideLine_decidedTo {l : Nat} (hworks : s.WorksOn t p) (hcore : s.Core) (h : s.DecidedTo l) :
    (s.decideLine p.height l).DecidedTo (l + 1) := by
  obtain ⟨ht, p', hp', hlike⟩ := hworks
  have hold := (decideLine_steady s p.height l).decided l hcore.queue h
  have hbands := (decideLine_steady s p.height l).core hcore |>.bands
  intro t' ht'
  obtain ⟨q, hq, hcopy, hdec⟩ := hold t' ht'
  rw [decideLine_engine, ht] at ht'
  obtain rfl := Option.some.inj ht'
  have hheight : q.height = p.height := by
    have : ∃ r, (s.decideLine p.height l).plate? t.plate = some r ∧ r.Like p := by
      unfold State.decideLine
      split
      · obtain ⟨r, hr, hlike'⟩ := decideBand_like (l / 256) ht hp'
        exact ⟨r, hr, hlike'.trans hlike⟩
      · exact ⟨p', hp', hlike⟩
    obtain ⟨r, hr, hlike'⟩ := this
    obtain rfl := Option.some.inj (hq.symm.trans hr)
    exact hlike'.height
  refine ⟨q, hq, hcopy, fun i b hb hi => ?_⟩
  by_cases hlt : 256 * i < l
  · exact hdec i b hb hlt
  · have hfirst : l = 256 * i := by omega
    have hlen := (hbands _ q hq).1
    have hi' := (List.getElem?_eq_some_iff.mp hb).1
    have hline : l % 256 = 0 ∧ l < p.height := by omega
    rw [State.decideLine, if_pos hline] at hq
    exact decideBand_decided (l / 256) _ ht hp' hq (by rwa [show l / 256 = i by omega])

end decide

end Sys2Proof.Machine

/-! FETCH_LINE_BEGIN and the end of a read keep the laws. -/

namespace Sys2Proof.Machine

section fetch
variable {s : State} {t : Taken} {p : Plate}

/-- The engine's own registers changed: its state and the plate taken stand. -/
theorem runs_steady (s : State) (e : Engine) (htaken : e.taken = s.engine.taken) (hstate : e.state = s.engine.state) :
    Steady s (s.withEngine e) := withEngine_steady s e htaken (by rw [hstate])

theorem runs_keeps (s : State) (e : Engine) (htaken : e.taken = s.engine.taken) (hstate : e.state = s.engine.state)
    (hfifo : s.engine.FifoLaw → e.FifoLaw) (hfetch : s.engine.FetchOk → e.FetchOk)
    (hpos : e.fetchPos = s.engine.fetchPos) : Keeps s (s.withEngine e) :=
  (runs_steady s e htaken hstate).keeps hfifo hfetch hpos.le

theorem passLine_steady (s : State) (plate copy line : Nat) : Steady s (s.passLine plate copy line) := by
  unfold State.passLine
  split
  next t p ht =>
    split
    next hcopy =>
      have hband : Steady s (if line < p.height ∧ p.lastLine (line / 256) = line then
          s.endBandFetch p copy (line / 256) else s) := by
        split
        · have := endBandFetch_steady s ht (line / 256)
          rwa [hcopy] at this
        · exact .refl s
      dsimp only
      split
      · exact hband.trans (runs_steady _ _ rfl rfl)
      · exact hband
    · exact .refl s
  · exact .refl s

/-- A fetch that runs no longer, or goes on, keeps what its law says of the engine. -/
theorem Engine.FetchOk.passed {e e' : Engine} (h : e.FetchOk)
    (he : e' = e ∨ e' = { e with running := false, urgent := false }) : e'.FetchOk := by
  rcases he with rfl | rfl
  · exact h
  · obtain ⟨htaken, hread⟩ := h
    refine ⟨fun t ht => ?_, hread⟩
    obtain ⟨hlead, hrest⟩ := htaken t ht
    exact ⟨fun hw => ⟨(hlead hw).1, rfl⟩, hrest⟩

theorem Engine.FifoLaw.passed {e e' : Engine} (h : e.FifoLaw)
    (he : e' = e ∨ e' = { e with running := false, urgent := false }) : e'.FifoLaw := by
  rcases he with rfl | rfl <;> exact h

theorem passLine_keeps (s : State) (plate copy line : Nat) : Keeps s (s.passLine plate copy line) := by
  have hengine := passLine_engine s plate copy line
  refine (passLine_steady s plate copy line).keeps (fun h => h.passed hengine) (fun h => h.passed hengine) ?_
  rcases hengine with h | h <;> rw [h]

/-! ### A line begun -/

/-- The engine as the fetch begins line `l`: the line joins the FIFO at once, or is read. -/
theorem begun_fetchOk {e : Engine} {l : Nat} (h : e.FetchOk) (hl : e.fetchPos = l) (hrun : e.running = true) :
    ({ e with fetchPos := l + 1 } : Engine).FetchOk := by
  obtain ⟨htaken, hread⟩ := h
  refine ⟨fun t ht => ?_, fun r hr => ?_⟩
  · obtain ⟨hlead, hswath, hfifo⟩ := htaken t ht
    refine ⟨fun hw => ?_, by dsimp only; omega, fun x hx => ?_⟩
    · have := (hlead hw).2
      rw [hrun] at this
      cases this
    · have := hfifo x hx
      dsimp only
      omega
  · rcases hread r hr with hd | ⟨ht, hline⟩
    · exact .inl hd
    · exact .inr ⟨ht, by dsimp only; omega⟩

theorem join_fetchOk {e : Engine} (h : e.FetchOk) {line : Nat} (bytes : List Byte) (hline : line < e.fetchPos) :
    (e.join line bytes).FetchOk := by
  obtain ⟨htaken, hread⟩ := h
  refine ⟨fun t ht => ?_, hread⟩
  obtain ⟨hlead, hswath, hfifo⟩ := htaken t ht
  refine ⟨hlead, hswath, fun x hx => ?_⟩
  rcases List.mem_append.mp (show x ∈ e.fifo ++ [⟨line, bytes⟩] from hx) with hx | hx
  · exact hfifo x hx
  · rw [List.mem_singleton.mp hx]
    exact hline

theorem join_fifoLaw {e : Engine} {line : Nat} {bytes : List Byte} (hroom : e.fifo.length < 32) (hread : e.read = none) :
    (e.join line bytes).FifoLaw := by
  change (e.fifo ++ [FifoLine.mk line bytes]).length + (if e.read.isSome then 1 else 0) ≤ 32
  rw [hread]
  simpa using hroom

/-- The fetch is due: what its engine then is. -/
theorem fetchDue_iff : s.fetchDue = true ↔ ∃ t p, s.takenPlate? = some (t, p) ∧ s.engine.running = true
    ∧ s.engine.read = none ∧ s.engine.fifo.length < 32 ∧ s.engine.fetchPos < 4 * p.swaths := by
  unfold State.fetchDue
  rcases h : s.takenPlate? with _ | ⟨t, p⟩
  · simp
  · simp only [Bool.and_eq_true, decide_eq_true_eq, Option.isNone_iff_eq_none, and_assoc, Option.some.injEq, Prod.mk.injEq]
    constructor
    · exact fun h => ⟨t, p, rfl, rfl, h⟩
    · rintro ⟨_, _, rfl, rfl, h⟩
      exact h

theorem lineDecided_eq (s : State) (p : Plate) (l : Nat) :
    s.lineDecided p l = (s.withEngine { s.engine with fetchPos := l + 1 }).decideLine p.height l := by
  unfold State.lineDecided State.decideLine
  simp only [and_comm]

/-- A line produced by an engine with room for it, before the lines the fetch has passed. -/
theorem produceLine_keeps {l : Nat} {q : Plate} (ht : s.engine.taken = some t) (hroom : s.engine.fifo.length < 32)
    (hread : s.engine.read = none) (hl : l < s.engine.fetchPos) : Keeps s (s.produceLine t q l) := by
  unfold State.produceLine
  split
  · refine runs_keeps s _ rfl rfl (fun _ => ?_) (fun h => ?_) rfl
    · change s.engine.fifo.length + 1 ≤ 32
      omega
    · obtain ⟨htaken, -⟩ := h
      refine ⟨htaken, fun r hr => .inr ?_⟩
      obtain rfl := Option.some.inj hr
      exact ⟨ht, hl⟩
  · refine Keeps.trans ?_ (passLine_keeps _ _ _ _)
    exact runs_keeps s _ rfl rfl (fun _ => join_fifoLaw hroom hread) (fun h => join_fetchOk h _ hl) rfl

theorem beginLine_keeps (hdue : s.fetchDue = true) : Keeps s (s.beginLine s.engine.fetchPos) := by
  obtain ⟨t, p, hpt, hrun, hread, hroom, -⟩ := fetchDue_iff.mp hdue
  obtain ⟨ht, hid, hp⟩ := takenPlate?_some hpt
  rw [hid] at hp
  obtain ⟨q, hq, -⟩ := lineDecided_like s.engine.fetchPos ht hp
  have hengine := lineDecided_engine s p s.engine.fetchPos
  rw [beginLine_eq ht hp hq]
  have hmoved : Steady s (s.withEngine { s.engine with fetchPos := s.engine.fetchPos + 1 }) := runs_steady s _ rfl rfl
  have hdecides : Keeps s (s.lineDecided p s.engine.fetchPos) := by
    have hsteady := hmoved.trans (decideLine_steady _ p.height s.engine.fetchPos)
    rw [← lineDecided_eq] at hsteady
    refine hsteady.keeps_of (fun h => by rw [hengine]; exact h)
      (fun _ h => by rw [hengine]; exact begun_fetchOk h rfl hrun) fun hcore hd => ?_
    rw [hengine, lineDecided_eq]
    exact decideLine_decidedTo (t := t) ⟨ht, p, hp, .refl p⟩ (hmoved.core hcore) (hmoved.decided _ hcore.queue hd)
  refine hdecides.trans (produceLine_keeps ?_ ?_ ?_ ?_)
  all_goals rw [hengine]
  · exact ht
  · exact hroom
  · exact hread
  · exact Nat.lt_succ_self _

/-! ### The end of a read -/

theorem noRead_fetchOk {e : Engine} (h : e.FetchOk) : ({ e with read := none } : Engine).FetchOk := by
  obtain ⟨htaken, -⟩ := h
  exact ⟨htaken, nofun⟩

theorem noRead_fifoLaw {e : Engine} (h : e.FifoLaw) : ({ e with read := none } : Engine).FifoLaw := by
  unfold Engine.FifoLaw at *
  have : e.fifo.length ≤ 32 := Nat.le_trans (Nat.le_add_right _ _) h
  simpa using this

/-- The read ends that the engine's read in progress began. -/
theorem endRead_keeps {r r' : FetchRead} (h : s.engine.read = some r) (hr : r' = { r with got := r'.got }) :
    Keeps s (s.endRead r') := by
  have hline : r'.line = r.line := by rw [hr]
  have hfate : r'.fate = r.fate := by rw [hr]
  have hnone : Keeps s (s.withEngine { s.engine with read := none }) :=
    runs_keeps s _ rfl rfl noRead_fifoLaw noRead_fetchOk rfl
  unfold State.endRead
  dsimp only
  split
  next hjoin =>
    refine Keeps.trans ?_ (passLine_keeps _ _ _ _)
    refine runs_keeps s ((s.withEngine { s.engine with read := none }).engine.join r'.line r'.got) rfl rfl
      (fun hf => join_fifoLaw ?_ rfl) (fun hf => ?_) rfl
    · unfold Engine.FifoLaw at hf
      rw [h] at hf
      simpa using hf
    · refine join_fetchOk (noRead_fetchOk hf) _ ?_
      obtain ⟨-, hread⟩ := hf
      rw [hline]
      rcases hread r h with hd | ⟨-, hlt⟩
      · rw [hfate, hd] at hjoin
        cases hjoin
      · exact hlt
  · exact hnone.trans (passLine_keeps _ _ _ _)
  · exact hnone

theorem fetchBurstDone_keeps (bytes : List Byte) : Keeps s (s.fetchBurstDone bytes) := by
  rcases hr : s.engine.read with _ | r
  · have hsame : s.fetchBurstDone bytes = s := by simp only [State.fetchBurstDone, hr]
    rw [hsame]
    exact .refl s
  · rw [fetchBurstDone_eq hr]
    split
    · refine runs_keeps s _ rfl rfl (fun h => ?_) (fun h => ?_) rfl
      · unfold Engine.FifoLaw at *
        rw [hr] at h
        exact h
      · obtain ⟨htaken, hread⟩ := h
        refine ⟨htaken, fun r' hr' => ?_⟩
        obtain rfl := Option.some.inj hr'
        exact hread r hr
    · exact endRead_keeps hr rfl

end fetch

end Sys2Proof.Machine

/-! IMAGE EDGE keeps the laws: the swath due is exposed, or is an underrun and skipped. -/

namespace Sys2Proof.Machine

section skip
variable {s : State} {t : Taken} {p : Plate}

/-! ### The lines skipped -/

theorem pass_steady (s : State) (t : Taken) (height l : Nat) : Steady s (s.pass t height l) :=
  (decideLine_steady s height l).trans (passLine_steady _ _ _ _)

theorem passes_steady (s : State) (t : Taken) (height : Nat) (ls : List Nat) : Steady s (ls.foldl (State.pass t height) s) := by
  induction ls generalizing s with
  | nil => exact .refl s
  | cons l ls ih => exact (pass_steady s t height l).trans (ih _)

/-- The lines passed from `l` on leave every band they reach decided. -/
theorem passes_decidedTo (n : Nat) {l : Nat} (hworks : s.WorksOn t p) (hcore : s.Core) (h : s.DecidedTo l) :
    ((List.range' l n).foldl (State.pass t p.height) s).DecidedTo (l + n) := by
  induction n generalizing s l with
  | zero => exact h
  | succ n ih =>
    obtain ⟨-, hworks', -⟩ := hworks.pass l
    have hdecide := decideLine_decidedTo hworks hcore h
    have hpass := (passLine_steady (s.decideLine p.height l) t.plate t.copy l).decided _
      ((decideLine_steady s p.height l).queue hcore.queue) hdecide
    rw [List.range'_succ, List.foldl_cons, show l + (n + 1) = l + 1 + n by omega]
    exact ih hworks' ((pass_steady s t p.height l).core hcore) hpass

theorem skipTo_steady (hworks : s.WorksOn t p) (sw : Nat) : Steady s (s.skipTo sw) := by
  obtain ⟨hskip, -, -⟩ := hworks.skipTo sw
  rw [hskip]
  split
  · exact (runs_steady s { s.engine with fetchPos := 4 * sw + 4 } rfl rfl).trans (passes_steady _ _ _ _)
  · exact .refl s

theorem skipTo_decidedTo (hworks : s.WorksOn t p) (sw : Nat) (hcore : s.Core) (h : s.DecidedTo s.engine.fetchPos) :
    (s.skipTo sw).DecidedTo (max s.engine.fetchPos (4 * sw + 4)) := by
  obtain ⟨hskip, -, -⟩ := hworks.skipTo sw
  rw [hskip]
  split
  next hpos =>
    have hmoved := runs_steady s { s.engine with fetchPos := 4 * sw + 4 } rfl rfl
    have := passes_decidedTo (s := s.withEngine { s.engine with fetchPos := 4 * sw + 4 }) (t := t) (p := p)
      (4 * sw + 4 - s.engine.fetchPos) hworks (hmoved.core hcore) (hmoved.decided _ hcore.queue h)
    rw [Nat.max_eq_right (by omega)]
    rwa [show s.engine.fetchPos + (4 * sw + 4 - s.engine.fetchPos) = 4 * sw + 4 by omega] at this
  next hpos =>
    rw [Nat.max_eq_left (by omega)]
    exact h

/-! ### The swath due -/

/-- What the fetch's law asks of an engine that exposes. -/
theorem fetchOk_of_exposing {e : Engine} (hstate : e.state = .exposing) (hswath : 4 * e.swath ≤ e.fetchPos)
    (hfifo : ∀ l ∈ e.fifo, l.line < e.fetchPos)
    (hread : ∀ r, e.read = some r → r.fate = .discard ∨ e.taken = some ⟨r.plate, r.copy⟩ ∧ r.line < e.fetchPos) :
    e.FetchOk :=
  ⟨fun _ _ => ⟨fun hw => absurd (hstate.symm.trans hw) (by simp), hswath, hfifo⟩, hread⟩

theorem handSwath_engine (t : Taken) (p : Plate) (sw : Nat) (underrun : Bool) (lines : List (List Byte)) :
    (s.handSwath t p sw underrun lines).engine = s.engine := by simp

/-- The fetch has passed the lines of a swath that the FIFO holds. -/
theorem passed_of_holdsSwath {e : Engine} {sw : Nat} (h : e.holdsSwath sw = true) (hfifo : ∀ l ∈ e.fifo, l.line < e.fetchPos) :
    4 * (sw + 1) ≤ e.fetchPos := by
  have hlines : (e.fifo.take 4).map FifoLine.line = swathLines sw := of_decide_eq_true h
  have hlast : 4 * sw + 3 ∈ (e.fifo.take 4).map FifoLine.line := by
    rw [hlines]
    simp [swathLines]
  obtain ⟨x, hx, hline⟩ := List.mem_map.mp hlast
  have := hfifo x (List.mem_of_mem_take hx)
  omega

theorem dueSwath_keeps (hstate : s.engine.state = .exposing) (ht : s.engine.taken = some t)
    (hdue : s.engine.holdsSwath s.engine.swath = true) : Keeps s (s.takeSwath t p) := by
  set sw := s.engine.swath with hsw
  rw [takeSwath_due hdue]
  have hengine : (s.exposeSwath t p sw).engine = ({ s.engine with fifo := s.engine.fifo.drop 4 } : Engine).testUrgency := by
    simp [State.exposeSwath]
  have hexposes : Steady s (s.exposeSwath t p sw) :=
    (runs_steady s ({ s.engine with fifo := s.engine.fifo.drop 4 } : Engine).testUrgency rfl rfl).trans
      (handSwath_steady _ _ _ _ _ _)
  have hcounts := runs_steady (s.exposeSwath t p sw) { (s.exposeSwath t p sw).engine with swath := sw + 1 } rfl rfl
  refine (hexposes.trans hcounts).keeps (fun h => ?_) (fun h => ?_) ?_
  all_goals rw [withEngine_engine, hengine]
  · change (s.engine.fifo.drop 4).length + (if s.engine.read.isSome then 1 else 0) ≤ 32
    unfold Engine.FifoLaw at h
    rw [List.length_drop]
    omega
  · obtain ⟨htaken, hread⟩ := h
    obtain ⟨-, -, hfifo⟩ := htaken t ht
    have hpassed : 4 * (sw + 1) ≤ s.engine.fetchPos := passed_of_holdsSwath hdue hfifo
    exact fetchOk_of_exposing hstate hpassed (fun x hx => hfifo x (List.mem_of_mem_drop hx)) hread
  · exact Nat.le_refl _

/-- The engine as a swath's lines are dropped and the fetch has passed them. -/
theorem dropped_fetchOk {e e' : Engine} {sw : Nat} (hstate : e.state = .exposing)
    (hran : e'.Ran { e.dropSwath sw with fetchPos := max e.fetchPos (4 * sw + 4) }) (ht : e.taken = some t) (h : e.FetchOk) :
    ({ e' with swath := sw + 1 } : Engine).FetchOk := by
  obtain ⟨running, urgent, rfl⟩ := hran
  obtain ⟨htaken, hread⟩ := h
  obtain ⟨-, -, hfifo⟩ := htaken t ht
  refine fetchOk_of_exposing hstate ?_ (fun x hx => ?_) fun r hr => ?_
  · dsimp only
    omega
  · have := hfifo x (List.mem_of_mem_filter hx)
    dsimp only
    omega
  · obtain ⟨r', hr', rfl⟩ := Option.map_eq_some_iff.mp hr
    have hold := hread r' hr'
    have hline : r'.line < e.fetchPos → r'.line < max e.fetchPos (4 * sw + 4) := fun h => by omega
    split
    next hdrop =>
      rcases hold with hd | ⟨htr, hlt⟩
      · rw [hdrop.2] at hd
        cases hd
      · exact .inr ⟨htr, hline hlt⟩
    · exact hold.imp_right fun ⟨htr, hlt⟩ => ⟨htr, hline hlt⟩

theorem dropped_fifoLaw {e e' : Engine} {sw pos : Nat} (hran : e'.Ran { e.dropSwath sw with fetchPos := pos })
    (h : e.FifoLaw) : ({ e' with swath := sw + 1 } : Engine).FifoLaw := by
  obtain ⟨running, urgent, rfl⟩ := hran
  have hlen : (e.dropSwath sw).fifo.length ≤ e.fifo.length := List.length_filter_le _ _
  have hread : (e.dropSwath sw).read.isSome = e.read.isSome := Option.isSome_map
  unfold Engine.FifoLaw at *
  dsimp only
  rw [hread]
  omega

theorem underrunSwath_steady (hworks : s.WorksOn t p) (sw : Nat) : Steady s (s.underrunSwath sw) := by
  have hdropped := runs_steady s (s.engine.dropSwath sw) rfl rfl
  have hskipped : Steady (s.withEngine (s.engine.dropSwath sw)) ((s.withEngine (s.engine.dropSwath sw)).skipTo sw) :=
    skipTo_steady (s := s.withEngine (s.engine.dropSwath sw)) (t := t) (p := p) hworks sw
  have htested := (hdropped.trans hskipped).trans (runs_steady _
    ((s.withEngine (s.engine.dropSwath sw)).skipTo sw).engine.testUrgency rfl rfl)
  unfold State.underrunSwath
  dsimp only
  split
  · exact htested.trans (handSwath_steady _ _ _ _ _ _)
  · exact htested

theorem underrunSwath_engine (s : State) (sw : Nat) : (s.underrunSwath sw).engine
    = ((s.withEngine (s.engine.dropSwath sw)).skipTo sw).engine.testUrgency := by
  unfold State.underrunSwath
  dsimp only
  split
  · rw [handSwath_engine]
    rfl
  · rfl

theorem underrunSwath_decidedTo (hworks : s.WorksOn t p) (sw : Nat) (hcore : s.Core) (h : s.DecidedTo s.engine.fetchPos) :
    (s.underrunSwath sw).DecidedTo (max s.engine.fetchPos (4 * sw + 4)) := by
  have hdropped := runs_steady s (s.engine.dropSwath sw) rfl rfl
  have hskipped := skipTo_decidedTo (s := s.withEngine (s.engine.dropSwath sw)) (t := t) (p := p) hworks sw
    (hdropped.core hcore) (hdropped.decided _ hcore.queue h)
  have hskips := hdropped.trans (skipTo_steady (s := s.withEngine (s.engine.dropSwath sw)) (t := t) (p := p) hworks sw)
  have htests := runs_steady _ ((s.withEngine (s.engine.dropSwath sw)).skipTo sw).engine.testUrgency rfl rfl
  have htested := htests.decided _ (hskips.queue hcore.queue) hskipped
  unfold State.underrunSwath
  dsimp only
  split
  · exact (handSwath_steady _ _ _ _ _ _).decided _ ((hskips.trans htests).queue hcore.queue) htested
  · exact htested

theorem lateSwath_keeps (hstate : s.engine.state = .exposing) (hworks : s.WorksOn t p)
    (hlate : ¬s.engine.holdsSwath s.engine.swath = true) : Keeps s (s.takeSwath t p) := by
  set sw := s.engine.swath with hsw
  rw [takeSwath_underrun hlate]
  obtain ⟨ht, -⟩ := id hworks
  obtain ⟨-, -, hran⟩ := State.WorksOn.skipTo (x := s.withEngine (s.engine.dropSwath sw)) (k := t) (p := p) hworks sw
  have hran' : (s.underrunSwath sw).engine.Ran
      { s.engine.dropSwath sw with fetchPos := max s.engine.fetchPos (4 * sw + 4) } := by
    rw [underrunSwath_engine]
    exact (testUrgency_ran _).trans hran
  have hpos : (s.underrunSwath sw).engine.fetchPos = max s.engine.fetchPos (4 * sw + 4) := by
    obtain ⟨running, urgent, he⟩ := hran'
    rw [he]
  have hsteady := underrunSwath_steady hworks sw
  have hcounts := runs_steady (s.underrunSwath sw) { (s.underrunSwath sw).engine with swath := sw + 1 } rfl rfl
  refine (hsteady.trans hcounts).keeps_of (fun h => dropped_fifoLaw hran' h)
    (fun _ h => dropped_fetchOk hstate hran' ht h) fun hcore h => ?_
  have hdecided := underrunSwath_decidedTo hworks sw hcore h
  rw [← hpos] at hdecided
  exact hcounts.decided _ (hsteady.queue hcore.queue) hdecided

/-! ### IMAGE EDGE and INDEX -/

theorem cutStep_keeps (s : State) (ticks pulses : Nat) : Keeps s (s.cutStep ticks pulses) :=
  (cutStep_steady s ticks pulses).keeps_same (by simp)

theorem seen_keeps (s : State) : Keeps s (s.withEngine { s.engine with edgeSeen := true }) :=
  runs_keeps s { s.engine with edgeSeen := true } rfl rfl (fun h => h) (fun h => h) rfl

theorem edgeExposing_keeps (ticks pulses : Nat) (hstate : s.engine.state = .exposing) : Keeps s (s.edgeExposing ticks pulses) := by
  unfold State.edgeExposing
  split
  next t p hpt =>
    obtain ⟨ht, hid, hp⟩ := takenPlate?_some hpt
    rw [hid] at hp
    set v := s.withEngine { s.engine with edgeSeen := true } with hv
    refine ((seen_keeps s).trans ?_).trans (cutStep_keeps _ _ _)
    by_cases hdue : v.engine.holdsSwath v.engine.swath = true
    · exact dueSwath_keeps hstate ht hdue
    · exact lateSwath_keeps hstate ⟨ht, p, hp, .refl p⟩ hdue
  · exact .refl s

theorem takeEdge_keeps (s : State) (ticks pulses : Nat) : Keeps s (s.takeEdge ticks pulses) := by
  unfold State.takeEdge
  split
  · exact .refl s
  · split
    · exact (seen_keeps s).trans (cutStep_keeps _ _ _)
    next hstate => exact edgeExposing_keeps ticks pulses hstate
    all_goals exact .refl s

end skip

end Sys2Proof.Machine

/-! INDEX, the changes of DRUM READY and EXPOSE SETUP keep the laws. -/

namespace Sys2Proof.Machine

section drum
variable {s : State}

/-- The engine goes on to a later state of its copy, or stays: its lines stand, and its swath does not rise. -/
structure Engine.GoesOn (e e' : Engine) : Prop where
  taken : e'.taken = e.taken
  idle : e'.state = .idle ↔ e.state = .idle
  lead : e'.state ≠ .waitLead
  fifo : e'.fifo = e.fifo
  read : e'.read = e.read
  pos : e'.fetchPos = e.fetchPos
  swath : e'.swath ≤ e.swath

theorem Engine.GoesOn.fetchOk {e e' : Engine} (h : e.GoesOn e') (hok : e.FetchOk) : e'.FetchOk := by
  obtain ⟨htaken, hread⟩ := hok
  refine ⟨fun t ht => ?_, fun r hr => ?_⟩
  · obtain ⟨-, hswath, hfifo⟩ := htaken t (h.taken ▸ ht)
    have hle := h.swath
    have hpos := h.pos
    refine ⟨fun hw => absurd hw h.lead, by omega, ?_⟩
    rw [h.fifo, h.pos]
    exact hfifo
  · rw [h.taken, h.pos]
    exact hread r (h.read ▸ hr)

theorem Engine.GoesOn.keeps {e : Engine} (h : s.engine.GoesOn e) : Keeps s (s.withEngine e) :=
  (withEngine_steady s e h.taken h.idle).keeps
    (fun hf => by
      change e.fifo.length + (if e.read.isSome then 1 else 0) ≤ 32
      rw [h.fifo, h.read]
      exact hf)
    h.fetchOk h.pos.le

/-! ### INDEX (R106) -/

theorem enterLeadIn_keeps (hstate : s.engine.state ≠ .idle) : Keeps s s.enterLeadIn := by
  have hlead : s.engine.GoesOn { s.engine.newRevolution with state := .leadIn, swath := 0 } :=
    ⟨rfl, ⟨nofun, fun h => absurd h hstate⟩, nofun, rfl, rfl, rfl, Nat.zero_le _⟩
  exact (hlead.keeps.trans (withMonitor_calm _ _).keeps).trans
    ((withMonitor_calm _ _).trans (withMonitor_calm _ _)).keeps

theorem newRevolution_keeps : Keeps s (s.withEngine s.engine.newRevolution) :=
  runs_keeps s s.engine.newRevolution rfl rfl (fun h => h) (fun h => h) rfl

theorem enterExposing_keeps (hstate : s.engine.state = .leadIn) (ticks pulses : Nat) :
    Keeps s (s.enterExposing ticks pulses) := by
  have hcut : (s.cutStep ticks pulses).engine = s.engine := by simp
  have hexposes : (s.cutStep ticks pulses).engine.GoesOn
      { (s.cutStep ticks pulses).engine.newRevolution with state := .exposing } := by
    rw [hcut]
    exact ⟨rfl, ⟨nofun, fun h => by rw [hstate] at h; cases h⟩, nofun, rfl, rfl, rfl, Nat.le_refl _⟩
  exact ((cutStep_keeps s ticks pulses).trans hexposes.keeps).trans (openGap_calm _).keeps

theorem indexExposing_keeps (s : State) : Keeps s s.indexExposing := by
  unfold State.indexExposing
  split
  next t p hpt =>
    split
    · split
      · exact ((withPins_calm s _).keeps.trans (newRevolution_keeps (s := s.laserOff))).trans (openGap_calm _).keeps
      next hlast => exact endCopy_keeps s hpt (Nat.not_lt.mp hlast)
    · exact drumFault_keeps s _
  · exact .refl s

theorem takeIndex_keeps (s : State) (ticks pulses : Nat) : Keeps s (s.takeIndex ticks pulses) := by
  unfold State.takeIndex
  split
  next hstate =>
    split
    · exact enterLeadIn_keeps (by rw [hstate]; nofun)
    · exact .refl s
  next hstate => exact enterExposing_keeps hstate ticks pulses
  · exact indexExposing_keeps s
  next hstate => exact enterLeadIn_keeps (by rw [hstate]; nofun)
  all_goals exact .refl s

/-! ### DRUM READY (R117, R121) -/

theorem readyFalls_keeps (s : State) : Keeps s s.readyFalls := by
  have hrise (hstate : s.engine.state ≠ .idle) : Keeps s (s.withEngine { s.engine with state := .change .awaitRise }) :=
    Engine.GoesOn.keeps (e := { s.engine with state := .change .awaitRise })
      ⟨rfl, ⟨nofun, fun h => absurd h hstate⟩, nofun, rfl, rfl, rfl, Nat.le_refl _⟩
  unfold State.readyFalls
  split
  · exact drumFault_keeps s _
  · exact drumFault_keeps s _
  next hstate => exact hrise (by rw [hstate]; nofun)
  next hstate => exact hrise (by rw [hstate]; nofun)
  all_goals exact .refl s

theorem readyRises_keeps (s : State) : Keeps s s.readyRises := by
  unfold State.readyRises
  split
  next hstate =>
    exact Engine.GoesOn.keeps (e := { s.engine with state := .change .awaitIndex })
      ⟨rfl, ⟨nofun, fun h => by rw [hstate] at h; cases h⟩, nofun, rfl, rfl, rfl, Nat.le_refl _⟩
  all_goals exact .refl s

/-! ### EXPOSE SETUP (R103) -/

theorem store_keeps (s : State) (u : Setup) : Keeps s (s.withEngine (s.engine.store u)) := by
  unfold Engine.store
  split
  · exact runs_keeps s { s.engine with active := u } rfl rfl (fun h => h) (fun h => h) rfl
  · exact runs_keeps s { s.engine with waiting := some u } rfl rfl (fun h => h) (fun h => h) rfl

end drum

end Sys2Proof.Machine

/-! The requests keep the laws: each is answered with a place of the reply queue free. -/

namespace Sys2Proof.Machine

section requests
variable {s : State} {m : Message}

/-! ### Replies -/

theorem due_room (h : s.due = some m) : s.link.replies.length < 8 := by
  obtain ⟨-, -, hroom, -⟩ := due_some h
  exact hroom

/-- A request that is answered at once. -/
theorem answered_keeps (h : s.due = some m) (a : Status) (r : List Byte) : Keeps s (s.answer a r) :=
  (answer_calm s (due_room h) a r).keeps

/-- A request whose operation keeps the laws and leaves the replies alone. -/
theorem Keeps.answered {u : State} (h : Keeps s u) (hm : s.due = some m) (hreplies : u.link.replies = s.link.replies)
    (a : Status) (r : List Byte) : Keeps s (u.answer a r) :=
  h.trans (answer_calm u (hreplies ▸ due_room hm) a r).keeps

/-! ### Plates -/

theorem plateDefine_keeps (h : s.due = some m) : Keeps s (plateDefine m s) := by
  unfold plateDefine
  split
  · exact answered_keeps h _ _
  next q hq =>
    split
    next hok =>
      have hcheck := hok
      unfold State.defineCheck at hcheck
      split_ifs at hcheck with hfound hfull _ _ _ hbands _ _ _
      have hnone : s.plate? q.plate.id = none := Option.not_isSome_iff_eq_none.mp hfound
      have hnew : q.plate.New := plate_new (Decidable.not_not.mp hbands)
      exact (addPlate_keeps hnew hnone (Nat.not_le.mp hfull)).answered h (by simp) _ _
    · exact answered_keeps h _ _

theorem plateRelease_keeps (h : s.due = some m) : Keeps s (plateRelease m s) := by
  unfold plateRelease
  split
  · exact answered_keeps h _ _
  · split
    · exact answered_keeps h _ _
    next p hp =>
      split
      · exact answered_keeps h _ _
      next hlive => exact (removePlate_keeps hp (by simpa using hlive)).answered h (by simp) _ _

theorem plateAbort_keeps (h : s.due = some m) : Keeps s (plateAbort m s) := by
  unfold plateAbort
  split
  · exact answered_keeps h _ _
  · split
    · exact answered_keeps h _ _
    next p hp =>
      obtain ⟨hid, -⟩ := plate?_some hp
      split
      next hlive => exact (abortPlate_keeps s (hid ▸ hp) hlive).answered h (by simp) _ _
      · exact answered_keeps h _ _

theorem bandQuery_keeps (h : s.due = some m) : Keeps s (bandQuery m s) := by
  unfold bandQuery
  dsimp only
  repeat' split
  all_goals exact answered_keeps h _ _

theorem authorise_keeps (s : State) (id : Nat) : Keeps s (s.authorise id) := by
  refine Keeps.trans ?_ (takeHead_keeps _)
  exact (modPlate_steady s id (f := fun p => { p with authorised := true }) (fun _ => rfl) (fun _ => rfl) fun p _ =>
    ⟨rfl, rfl, rfl, rfl, rfl, forall₂_refl BandSame.refl _, fun hb => hb⟩).keeps_same rfl

theorem plateExpose_keeps (h : s.due = some m) : Keeps s (plateExpose m s) := by
  unfold plateExpose
  split
  · exact answered_keeps h _ _
  · split
    · exact answered_keeps h _ _
    · split
      · exact (authorise_keeps s _).answered h (by simp) _ _
      · exact answered_keeps h _ _

theorem exposeSetup_keeps (h : s.due = some m) : Keeps s (exposeSetup m s) := by
  unfold exposeSetup
  split
  · exact answered_keeps h _ _
  · split
    · exact answered_keeps h _ _
    · exact (store_keeps s _).answered h rfl _ _

theorem plateReport_keeps (h : s.due = some m) : Keeps s (plateReport m s) := by
  unfold plateReport
  repeat' split
  all_goals exact answered_keeps h _ _

/-! ### The feed, the monitor and STATUS -/

theorem feedClear_keeps (h : s.due = some m) : Keeps s (feedClear m s) := by
  unfold feedClear
  split
  · exact (count_calm s _).keeps.answered h (by simp) _ _
  · exact answered_keeps h _ _

theorem monitorRead_keeps (h : s.due = some m) : Keeps s (monitorRead m s) := by
  unfold monitorRead
  split <;> exact answered_keeps h _ _

theorem beginScan_calm (s : State) (set mode : Nat) : Calm s (s.beginScan set mode) :=
  (withMonitor_calm s _).trans (withMonitor_calm _ _)

theorem monitorMeasure_keeps (h : s.due = some m) : Keeps s (monitorMeasure m s) := by
  unfold monitorMeasure
  dsimp only
  repeat' split
  · exact answered_keeps h _ _
  · exact answered_keeps h _ _
  · exact answered_keeps h _ _
  · exact answered_keeps h _ _
  · exact (beginScan_calm s _ _).keeps.answered h (by simp) _ _

theorem monitorStop_keeps (h : s.due = some m) : Keeps s (monitorStop m s) := by
  unfold monitorStop
  repeat' split
  · exact answered_keeps h _ _
  · exact (withMonitor_calm s s.monitor.stopped).keeps.answered h rfl _ _
  · exact answered_keeps h _ _

theorem statusRequest_keeps (h : s.due = some m) : Keeps s (statusRequest m s) := by
  unfold statusRequest
  split <;> exact answered_keeps h _ _

/-! ### The two stores -/

theorem stampRows_length (body : List Byte) : (stampRows body).length = 64 := by simp [stampRows]

theorem withStamps_calm (s : State) (n : Nat) (rows : List (BitVec 64)) (hrows : rows.length = 64) :
    Calm s (s.withStamps (s.stamps.set n rows)) := by
  refine .beside id id (fun h => ?_) rfl rfl rfl rfl rfl rfl rfl rfl
  obtain ⟨hscreens, hstamps, hall⟩ := h
  refine ⟨hscreens, by simpa using hstamps, fun x hx => ?_⟩
  rcases List.mem_or_eq_of_mem_set (show x ∈ s.stamps.set n rows from hx) with hx | rfl
  · exact hall x hx
  · exact hrows

theorem stampLoad_keeps (h : s.due = some m) : Keeps s (stampLoad m s) := by
  unfold stampLoad
  dsimp only
  repeat' split
  · exact answered_keeps h _ _
  · exact answered_keeps h _ _
  · exact answered_keeps h _ _
  · exact (withStamps_calm s _ _ (stampRows_length _)).keeps.answered h rfl _ _

/-- The state of a set changed, where a set in use stays READY. -/
theorem setScreens_calm (s : State) (n : Nat) (f : ScreenSet → ScreenSet)
    (hf : ∀ x, s.screens[n]? = some x → (f x).useCount = x.useCount
      ∧ (0 < x.useCount → (∃ p, x.state = .ready p) → ∃ p, (f x).state = .ready p)) :
    Calm s (s.withScreens (s.screens.modify n f)) where
  link h := h
  ring h := h
  marks h := h
  stores := stores_of (by simp) rfl
  segs h := h.sets f n hf rfl rfl rfl rfl rfl
  entries e he hl := ⟨e, he, hl, rfl, rfl⟩
  pool := rfl
  table := rfl
  decoder := rfl
  screener := rfl
  engine := rfl

theorem screenBegin_keeps (h : s.due = some m) : Keeps s (screenBegin m s) := by
  unfold screenBegin
  split
  · exact answered_keeps h _ _
  next n p _ =>
    split
    · exact answered_keeps h _ _
    next x hx =>
      split
      · exact answered_keeps h _ _
      next hunused =>
        split
        · refine (setScreens_calm s n (fun x => { x with state := .loading p }) fun y hy =>
            ⟨rfl, fun hused _ => absurd ?_ hunused⟩).keeps.answered h rfl _ _
          rwa [Option.some.inj (hx.symm.trans hy)]
        · exact answered_keeps h _ _

theorem screenTable_keeps (h : s.due = some m) : Keeps s (screenTable m s) := by
  obtain ⟨-, hjob, hroom, -⟩ := due_some h
  unfold screenTable
  dsimp only
  split
  · split
    · split
      · exact answered_keeps h _ _
      · split
        · exact answered_keeps h _ _
        · split
          · exact answered_keeps h _ _
          · refine (withLink_calm s fun hb => ?_).keeps
            obtain ⟨hreq, hrep, hrest⟩ := hb
            exact ⟨hreq, hroom, hrest⟩
    all_goals exact answered_keeps h _ _
  · exact answered_keeps h _ _

theorem screenEnd_keeps (h : s.due = some m) : Keeps s (screenEnd m s) := by
  unfold screenEnd
  dsimp only
  split
  · split
    next p _ =>
      split
      · exact (setScreens_calm s _ (fun x => { x with state := .ready p }) fun _ _ =>
          ⟨rfl, fun _ _ => ⟨p, rfl⟩⟩).keeps.answered h rfl _ _
      · exact answered_keeps h _ _
    all_goals exact answered_keeps h _ _
  · exact answered_keeps h _ _

end requests

end Sys2Proof.Machine

/-! BURST_DONE and the resets keep the laws. -/

namespace Sys2Proof.Machine

section bursts
variable {s : State}

/-! ### A burst's end (R165, R166) -/

theorem endPayload_calm {seg : OpenSegment} (h : s.feed.intake = .assembling seg) (payload : List Byte) :
    Calm s (s.endPayload seg payload) :=
  (setIntake_calm s (by rw [h]; rfl)).trans (finishFrame_calm _)

theorem intakeBurstDone_calm (n : Nat) : Calm s (s.intakeBurstDone n) := by
  unfold State.intakeBurstDone
  split
  next seg h =>
    split
    · split
      · exact setIntake_calm s (by rw [h]; rfl)
      · exact endPayload_calm h _
    · exact .refl s
  all_goals exact .refl s

theorem filled_ready {st : ScreenState} (fill : Nat) (h : ∃ p, st = .ready p) : ∃ p, st.filled fill = .ready p := by
  obtain ⟨p, rfl⟩ := h
  exact ⟨p, rfl⟩

/-- A SCREEN TABLE keeps a place of the reply queue for its reply. -/
theorem tableBurstDone_calm (n : Nat) : Calm s (s.tableBurstDone n) := by
  unfold State.tableBurstDone
  split
  next j hj =>
    dsimp only
    split
    · refine withLink_calm s fun hb => ?_
      obtain ⟨hreq, hrep, hrest⟩ := hb
      rw [hj] at hrep
      exact ⟨hreq, hrep, hrest⟩
    · refine Calm.trans (setScreens_calm s j.set (fun x => { x with state := x.state.filled (j.first + j.bytes.length / 2) })
        fun x _ => ⟨rfl, fun _ hready => filled_ready _ hready⟩) (withLink_calm _ fun hb => ?_)
      have hroom : s.link.replies.length < 8 := by
        obtain ⟨-, hrep, -⟩ := hb
        rw [withScreens_link, hj] at hrep
        exact hrep
      exact hb.answer hroom _ _
  · exact .refl s

theorem serve_keeps (b : Burst) (bytes : List Byte) : Keeps s (s.serve b bytes) := by
  unfold State.serve
  split
  · exact fetchBurstDone_keeps bytes
  · split
    · exact .refl s
    · exact (intakeBurstDone_calm _).keeps
  · split
    next d hd => exact (stepDecoder_steady s hd (by simp)).keeps_same (by simp)
    · exact .refl s
  · split
    next d hd => exact (withScreener_calm s (by simp [hd])).keeps
    · exact .refl s
  · exact (tableBurstDone_calm _).keeps

theorem finishBurst_keeps (b : Burst) : Keeps s (s.finishBurst b) :=
  ((withMemory_calm s _).trans (withArbiter_calm _ _)).keeps.trans (serve_keeps b _)

end bursts

/-! ### Resets -/

/-- A state after a reset: no plate, no entry, no work, no mark, and every buffer free. -/
structure State.Fresh (u : State) : Prop where
  segs : u.segs.queue = []
  feed : u.feed.intake.opened = []
  pool : u.pool = .reset
  table : u.table = .reset
  decoder : u.decoder = none
  screener : u.screener = none
  marks : u.marks = .reset
  engine : ∃ active, u.engine = .reset active
  unused : ∀ x ∈ u.screens, x.useCount = 0

section fresh
variable {u : State}

theorem State.Fresh.plate? (h : u.Fresh) (id : Nat) : u.plate? id = none := by
  rw [plate?_none, h.table]
  nofun

theorem State.Fresh.works (h : u.Fresh) : u.works = [] := by
  simp [State.works, h.decoder, h.screener]

theorem State.Fresh.queueLaw (h : u.Fresh) : u.QueueLaw := by
  obtain ⟨active, he⟩ := h.engine
  refine (queueLaw_iff u).mpr ⟨?_, ?_, fun id => ?_, fun id x hx => ?_, fun t ht => ?_, ?_⟩
  · rw [h.table]
    exact List.nodup_nil
  · rw [h.table]
    exact List.nodup_nil
  · simp [h.table, Table.reset, h.plate?]
  · rw [h.plate?] at hx
    cases hx
  · rw [he] at ht
    cases ht
  · rw [he]
    exact ⟨fun _ => rfl, fun _ => rfl⟩

theorem State.Fresh.segmentLaw (h : u.Fresh) (hscreens : u.screens.length = 8) : u.SegmentLaw := by
  refine ⟨?_, ?_, ?_, ?_, hscreens, fun n x hx => ?_⟩
  · rw [h.segs]
    exact h.feed.symm
  · simp [h.segs, h.decoder]
  · simp [h.segs, h.screener]
  · simp [h.segs]
  · have := h.unused x (List.mem_of_getElem? hx)
    simp [h.segs, this]

theorem State.Fresh.sound (h : u.Fresh) (hscreens : u.screens.length = 8) : u.Sound := by
  obtain ⟨active, he⟩ := h.engine
  refine (sound_iff u).mpr ⟨⟨h.queueLaw, h.segmentLaw hscreens, fun id p hp => ?_, ?_, fun n => ?_, ?_⟩, ?_, fun t ht => ?_⟩
  · rw [h.plate?] at hp
    cases hp
  · simp [State.RenderLaw, h.works, h.segs, h.plate?]
  · have hfree : u.pool.free.count n = if n < 160 then 1 else 0 := by
      rw [h.pool, Pool.reset, List.nodup_range.count]
      simp
    simp [State.placesOf, hfree, h.table, Table.reset, h.works]
  · intro before id after hq
    simp [h.table, Table.reset] at hq
  · rw [he]
    exact ⟨nofun, nofun⟩
  · rw [he] at ht
    cases ht

theorem State.Fresh.ringLaw (h : u.Fresh) : u.segs.RingLaw := by
  unfold Segments.RingLaw
  rw [h.segs]
  exact ⟨Nat.zero_le _, Nat.zero_le _⟩

theorem State.Fresh.tableBounded (h : u.Fresh) : u.table.Bounded := by
  rw [h.table]
  exact ⟨Nat.zero_le _, List.nodup_nil, nofun⟩

theorem State.Fresh.fifoLaw (h : u.Fresh) : u.engine.FifoLaw := by
  obtain ⟨active, he⟩ := h.engine
  rw [he]
  exact fifoLaw_of_nil rfl

theorem State.Fresh.marksOrdered (h : u.Fresh) : u.marks.Ordered := by
  rw [h.marks]
  exact marks_reset_ordered

theorem State.Fresh.keeps {s : State} (h : u.Fresh) (hlink : s.link.Bounded → u.link.Bounded)
    (hscreens : s.screens.length = 8 → u.screens.length = 8) (hstores : s.StoresWhole → u.StoresWhole) : Keeps s u where
  link := hlink
  ring _ := h.ringLaw
  table _ := h.tableBounded
  marks _ := h.marksOrdered
  fifo _ := h.fifoLaw
  stores := hstores
  segs hs := by
    obtain ⟨-, -, -, -, hlen, -⟩ := hs
    exact h.segmentLaw (hscreens hlen)
  queue _ := h.queueLaw
  sound hs := by
    obtain ⟨-, ⟨-, -, -, -, hlen, -⟩, -⟩ := hs
    exact h.sound (hscreens hlen)

theorem softReset_fresh (s : State) : s.softReset.Fresh := by
  refine ⟨rfl, rfl, rfl, rfl, rfl, rfl, rfl, ⟨_, rfl⟩, fun x hx => ?_⟩
  obtain ⟨y, -, rfl⟩ := List.mem_map.mp hx
  rfl

theorem unused_of_replicate {x : ScreenSet} {n : Nat} (h : x ∈ List.replicate n (⟨.free, 0⟩ : ScreenSet)) : x.useCount = 0 := by
  rw [List.eq_of_mem_replicate h]

theorem reset_fresh : State.reset.Fresh :=
  ⟨rfl, rfl, rfl, rfl, rfl, rfl, rfl, ⟨_, rfl⟩, fun _ hx => unused_of_replicate hx⟩

theorem powerOn_fresh (s : State) (address : BitVec 4) (rate : BitVec 2) : (s.powerOn address rate).Fresh :=
  ⟨rfl, rfl, rfl, rfl, rfl, rfl, rfl, ⟨_, rfl⟩, fun _ hx => unused_of_replicate hx⟩

theorem reset_storesWhole : State.reset.StoresWhole := by
  refine ⟨rfl, rfl, fun x hx => ?_⟩
  rw [List.eq_of_mem_replicate hx]
  rfl

theorem reset_linkBounded : State.reset.link.Bounded :=
  ⟨Nat.zero_le _, Nat.zero_le _, Nat.zero_le _, Nat.zero_le _, Nat.zero_le _⟩

end fresh

section resets
variable {s : State} {m : Message}

theorem softReset_keeps (h : s.due = some m) : Keeps s s.softReset := by
  refine (softReset_fresh s).keeps (fun hb => ?_) (fun hlen => by simpa [State.softReset] using hlen) fun hs => ?_
  · obtain ⟨-, hrep, -⟩ := hb.answer (due_room h) .ok []
    exact ⟨Nat.zero_le _, hrep, Nat.zero_le _, Nat.zero_le _, Nat.zero_le _⟩
  · obtain ⟨hscreens, hstamps⟩ := hs
    exact ⟨by simpa [State.softReset] using hscreens, hstamps⟩

theorem resetRequest_keeps (h : s.due = some m) : Keeps s (resetRequest m s) := by
  unfold resetRequest
  split
  · exact softReset_keeps h
  · exact answered_keeps h _ _

theorem powerOn_keeps (s : State) (address : BitVec 4) (rate : BitVec 2) : Keeps s (s.powerOn address rate) :=
  (powerOn_fresh s address rate).keeps (fun _ => reset_linkBounded) (fun _ => rfl) fun _ => reset_storesWhole

theorem assertReset_keeps (s : State) : Keeps s s.assertReset :=
  ((((((withPins_calm s { s.pins with resetAsserted := true, laser := none }).trans
    (withLink_calm _ (x := { s.link with sending := none }) fun h => h)).trans
    (withFeed_calm _ (x := { s.feed with hold := false, stallArmed := s.feed.stallArmed || s.feed.hold }) rfl)).trans
    (withMonitor_calm _ { s.monitor with step := .none })).trans
    (withMemory_calm _ (s.memory.stopped s.arbiter))).trans (withArbiter_calm _ { s.arbiter with burst := none })).keeps

end resets

end Sys2Proof.Machine

/-! The laws hold after power-on reset (O57), and every step keeps them (O59, O60). -/

namespace Sys2Proof.Machine

section step
variable {s u : State}

/-- Every operation of a command keeps the laws. -/
theorem effect_keeps {c : Instr} (h : Effect c s u) : Keeps s u := by
  cases c with
  | plateDefine => obtain ⟨m, hm, rfl⟩ := h; exact plateDefine_keeps hm
  | plateRelease => obtain ⟨m, hm, rfl⟩ := h; exact plateRelease_keeps hm
  | plateAbort => obtain ⟨m, hm, rfl⟩ := h; exact plateAbort_keeps hm
  | bandQuery => obtain ⟨m, hm, rfl⟩ := h; exact bandQuery_keeps hm
  | feedClear => obtain ⟨m, hm, rfl⟩ := h; exact feedClear_keeps hm
  | screenBegin => obtain ⟨m, hm, rfl⟩ := h; exact screenBegin_keeps hm
  | screenTable => obtain ⟨m, hm, rfl⟩ := h; exact screenTable_keeps hm
  | screenEnd => obtain ⟨m, hm, rfl⟩ := h; exact screenEnd_keeps hm
  | plateExpose => obtain ⟨m, hm, rfl⟩ := h; exact plateExpose_keeps hm
  | exposeSetup => obtain ⟨m, hm, rfl⟩ := h; exact exposeSetup_keeps hm
  | monitorRead => obtain ⟨m, hm, rfl⟩ := h; exact monitorRead_keeps hm
  | monitorMeasure => obtain ⟨m, hm, rfl⟩ := h; exact monitorMeasure_keeps hm
  | monitorStop => obtain ⟨m, hm, rfl⟩ := h; exact monitorStop_keeps hm
  | stampLoad => obtain ⟨m, hm, rfl⟩ := h; exact stampLoad_keeps hm
  | plateReport => obtain ⟨m, hm, rfl⟩ := h; exact plateReport_keeps hm
  | status => obtain ⟨m, hm, rfl⟩ := h; exact statusRequest_keeps hm
  | softReset => obtain ⟨m, hm, rfl⟩ := h; exact resetRequest_keeps hm
  | unknownRequestKind => obtain ⟨m, hm, rfl⟩ := h; exact answered_keeps hm _ _
  | messageReceived kind tag body crc => obtain rfl := h; exact (withLink_calm s fun hb => hb.judge _ _).keeps
  | messageLengthTooLong _ => obtain rfl := h; exact (withLink_calm s fun hb => hb.error).keeps
  | messageGap => obtain rfl := h; exact (withLink_calm s fun hb => hb.error).keeps
  | transmitReply => obtain rfl := h; exact (sendNext_calm s).keeps
  | transmitNotice => obtain rfl := h; exact (sendNext_calm s).keeps
  | messageSent => obtain rfl := h; exact (sendNext_calm s).keeps
  | syncByteReceived => obtain rfl := h; exact (withLink_calm s (x := { s.link with receiver := .receiving }) fun hb => hb).keeps
  | resetPinAsserted => obtain rfl := h; exact assertReset_keeps s
  | powerOnReset address rate => obtain rfl := h; exact powerOn_keeps s address rate
  | frameArrivalStart kind length => obtain rfl := h; exact (frameStart_calm s _ _).keeps
  | frameArrivalEnd body crc => obtain rfl := h; exact (endFrame_calm s _ _).keeps
  | feedFrameGap => obtain rfl := h; exact (cutFrame_calm s).keeps
  | selectFrame => obtain ⟨body, rfl⟩ := h; exact takeSelect_keeps body
  | openFrame => obtain ⟨body, rfl⟩ := h; exact takeOpen_keeps body
  | dataFrame => obtain ⟨body, rfl⟩ := h; exact takeData_keeps body
  | closeFrame => obtain ⟨body, rfl⟩ := h; exact takeClose_keeps body
  | checkErrorFrame => obtain ⟨kind, rfl⟩ := h; exact takeBadFrame_keeps kind
  | lossMark => obtain rfl := h; exact takeLoss_keeps
  | renderStart kind => obtain ⟨e, he, hfree, rfl⟩ := h; exact startRender_keeps he hfree
  | lineDecodeEnd => obtain ⟨d, hd, -, rfl⟩ := h; exact endDecode_keeps hd
  | screenRenderEnd => obtain ⟨d, hd, -, rfl⟩ := h; exact endRender_keeps (by simp [State.Renders, hd])
  | burstGrant => obtain ⟨b, -, -, rfl⟩ := h; exact (withArbiter_calm s _).keeps
  | burstDone => obtain ⟨b, -, -, rfl⟩ := h; exact finishBurst_keeps b
  | fetchLineBegin => obtain ⟨hdue, rfl⟩ := h; exact beginLine_keeps hdue
  | index ticks pulses => obtain rfl := h; exact takeIndex_keeps s _ _
  | imageEdge ticks pulses => obtain rfl := h; exact takeEdge_keeps s _ _
  | drumReadyFall =>
    rcases h with rfl | rfl
    · exact (withPins_calm s _).keeps
    · exact (withPins_calm s _).keeps.trans (readyFalls_keeps _)
  | drumReadyRise =>
    rcases h with rfl | rfl
    · exact (withPins_calm s _).keeps
    · exact (withPins_calm s _).keeps.trans (readyRises_keeps _)
  | indexWatchdogExpiry => obtain ⟨-, rfl⟩ := h; exact drumFault_keeps s _
  | refStepEnd pulses => obtain ⟨-, rfl⟩ := h; exact (endRef_steady s _ _ _).keeps_same (by simp)
  | beamStepPulseEnd ticks => obtain ⟨k, n1, -, rfl⟩ := h; exact (endBeam_steady s _ _ _ _).keeps_same (by simp)
  | beamStepGateTimeout pulses => obtain ⟨k, n1, -, rfl⟩ := h; exact (endBeam_steady s _ _ _ _).keeps_same (by simp)

/-- Every step keeps the laws. -/
theorem step_keeps (h : step s = .next u) : Keeps s u :=
  kept_by_step (P := Keeps s) (fun x r hx => hx.trans (withPending_calm x r).keeps)
    (fun x hx => hx.trans (testStall_calm x).keeps) (fun _ _ _ he hx => hx.trans (effect_keeps he)) (.refl s) h

end step

/-- Settles O57. -/
theorem lawsAtReset : Obligations.LawsAtReset :=
  have hfresh := reset_fresh
  ⟨rfl, reset_linkBounded, hfresh.ringLaw, hfresh.marksOrdered, hfresh.fifoLaw, hfresh.tableBounded, reset_storesWhole,
    hfresh.queueLaw, hfresh.segmentLaw rfl, hfresh.sound rfl⟩

/-- Settles O59. -/
theorem boundsKept : Obligations.BoundsKept := by
  intro s t h
  have hkeeps := step_keeps h
  exact ⟨hkeeps.link, hkeeps.ring, hkeeps.table, hkeeps.marks, hkeeps.fifo, hkeeps.stores, hkeeps.segs⟩

/-- Settles O60. -/
theorem queueLawKept : Obligations.QueueLawKept := by
  intro s t h
  have hkeeps := step_keeps h
  exact ⟨hkeeps.queue, hkeeps.sound⟩

end Sys2Proof.Machine
